-- ==== Sys2Proof/Word.lean ====
section
/-! DEFINITION. The words, bytes, frames and percentages of ZIGGY-XCVR. -/

namespace Sys2Proof

/-- A 32-bit word of the register window and of the command word (R70, R86). -/
abbrev Word := BitVec 32

/-- A byte (R13). -/
abbrev Byte := BitVec 8

/-- A frame F[0..15] of 16 bytes, F[0] sent first (R19, R95). -/
abbrev Frame := Vector Byte 16

/-- A colour channel in percent after clamping, 0..100 (R37, R128). -/
abbrev Percent := Fin 101

end Sys2Proof
end

