-- ==== Sys2Proof/Syntax.lean ====
section
/-! DEFINITION. The ops of spec/opcode_table.json as one inductive type (R90), and the op classes of R26. -/

namespace Sys2Proof

/-- The ops of R90, with each operand as R88 reads it: unsigned fields as Nat, speeds as Int (sign
extended), DIR as a Bool, FILL as a byte. The ranges are WellFormed's. -/
inductive Instr where
  | nop
  | init
  | stopAll
  | setAllLeds (r g b : Nat)
  | setSingleLed (port r g b : Nat)
  | resetEncoders
  | readSensors
  | move (dir : Bool) (spd : Int) (amt : Nat)
  | turn (dir : Bool) (spd : Int) (amt : Nat)
  | setWheels (lspd rspd : Int)
  | xferRaw (len : Nat) (fill : Byte)
  | refresh (maxAge : Nat)
  | getDistance
  | getLight (sel : Nat)
  | getLine (sel : Nat)
  | getBattery
  | getEncoder (sel : Nat)
  | getPosflag
  | getAccel (sel : Nat)
  | getMagnet (sel : Nat)
  | getCompass
  | getOrient (sel : Nat)
deriving DecidableEq, Repr, Inhabited

/-- The three ways an op runs: a local op in its decode step, a plain bus op by the skeleton of R124, a
cache op (REFRESH or a getter) by the sequence of R147. R26's bus ops are the last two. -/
inductive OpClass where
  | localOp
  | plainBus
  | cache
deriving DecidableEq, Repr

/-- R26 and R90's class column. -/
def Instr.opClass : Instr → OpClass
  | .nop | .init => .localOp
  | .stopAll | .setAllLeds _ _ _ | .setSingleLed _ _ _ _ | .resetEncoders | .readSensors => .plainBus
  | .move _ _ _ | .turn _ _ _ | .setWheels _ _ | .xferRaw _ _ => .plainBus
  | .refresh _ | .getDistance | .getLight _ | .getLine _ | .getBattery | .getEncoder _ | .getPosflag => .cache
  | .getAccel _ | .getMagnet _ | .getCompass | .getOrient _ => .localOp

/-! The pseudo-ops of R94: names of core ops. -/

/-- SET_BEAK r, g, b (R94). -/
def Instr.setBeak (r g b : Nat) : Instr := .setSingleLed 0 r g b

/-- SET_TAIL n, r, g, b (R94). -/
def Instr.setTail (n r g b : Nat) : Instr := .setSingleLed n r g b

/-- SET_TAILS r, g, b (R94). -/
def Instr.setTails (r g b : Nat) : Instr := .setAllLeds r g b

/-- MOTOR_STOP (R94). -/
def Instr.motorStop : Instr := .setWheels 0 0

/-- FORWARD cm, pct (R94). -/
def Instr.forward (cm : Nat) (pct : Int) : Instr := .move false pct cm

/-- BACKWARD cm, pct (R94). -/
def Instr.backward (cm : Nat) (pct : Int) : Instr := .move true pct cm

end Sys2Proof
end

