-- ==== Sys2Proof/WellFormed.lean ====
section
/-! DEFINITION. Which instructions fit the operand fields of the command word (R87, R88). -/

namespace Sys2Proof

/-- An 8-bit unsigned field (R88: R, G, B). -/
def fitsByte (n : Nat) : Bool := decide (n < 256)

/-- An 8-bit signed field (R88: SPD, LSPD, RSPD are −128..127). -/
def fitsSigned (v : Int) : Bool := decide (-128 ≤ v) && decide (v ≤ 127)

/-- A 16-bit unsigned field (R88: AMT, MAXAGE). -/
def fitsHalf (n : Nat) : Bool := decide (n < 65536)

/-- A 3-bit unsigned field (R88: PORT, SEL). -/
def fitsThree (n : Nat) : Bool := decide (n < 8)

/-- Every operand fits its field (R88). -/
def Instr.wellFormed : Instr → Bool
  | .nop | .init | .stopAll | .resetEncoders | .readSensors => true
  | .setAllLeds r g b => fitsByte r && fitsByte g && fitsByte b
  | .setSingleLed port r g b => fitsThree port && fitsByte r && fitsByte g && fitsByte b
  | .move _ spd amt => fitsSigned spd && fitsHalf amt
  | .turn _ spd amt => fitsSigned spd && fitsHalf amt
  | .setWheels lspd rspd => fitsSigned lspd && fitsSigned rspd
  | .xferRaw len _ => decide (len < 32)
  | .refresh maxAge => fitsHalf maxAge
  | .getDistance | .getBattery | .getPosflag | .getCompass => true
  | .getLight sel | .getLine sel | .getEncoder sel => fitsThree sel
  | .getAccel sel | .getMagnet sel | .getOrient sel => fitsThree sel

end Sys2Proof
end

