-- ==== Sys2Proof/Decode.lean ====
section
/-! DEFINITION. Decoding and encoding of the command word (R86 to R92). -/

namespace Sys2Proof

/-- Why a word is no op of the table: its OP is one of the reserved values of R91. -/
inductive DecodeError where
  | reservedOp (op : Nat)
deriving DecidableEq, Repr

/-- The field w[lo+len−1 : lo] as an unsigned number (R13). -/
def field (w : Word) (lo len : Nat) : Nat := w.toNat / 2 ^ lo % 2 ^ len

/-- A byte read as two's complement: sext_32 of R88. -/
def signedByte (n : Nat) : Int := if n < 128 then (n : Int) else (n : Int) - 256

/-- The decoding of R86 to R91. Reserved operand bits, and SET_ALL_LEDS's PORT, are not read. -/
def decode (w : Word) : Except DecodeError Instr :=
  match field w 27 5 with
  | 0x00 => .ok .nop
  | 0x01 => .ok .init
  | 0x02 => .ok .stopAll
  | 0x03 => .ok (.setAllLeds (field w 16 8) (field w 8 8) (field w 0 8))
  | 0x04 => .ok (.setSingleLed (field w 24 3) (field w 16 8) (field w 8 8) (field w 0 8))
  | 0x05 => .ok .resetEncoders
  | 0x06 => .ok .readSensors
  | 0x07 => .ok (.move (field w 26 1 == 1) (signedByte (field w 16 8)) (field w 0 16))
  | 0x08 => .ok (.turn (field w 26 1 == 1) (signedByte (field w 16 8)) (field w 0 16))
  | 0x09 => .ok (.setWheels (signedByte (field w 8 8)) (signedByte (field w 0 8)))
  | 0x0A => .ok (.xferRaw (field w 8 5) (BitVec.ofNat 8 (field w 0 8)))
  | 0x0B => .ok (.refresh (field w 0 16))
  | 0x10 => .ok .getDistance
  | 0x11 => .ok (.getLight (field w 0 3))
  | 0x12 => .ok (.getLine (field w 0 3))
  | 0x13 => .ok .getBattery
  | 0x14 => .ok (.getEncoder (field w 0 3))
  | 0x15 => .ok .getPosflag
  | 0x18 => .ok (.getAccel (field w 0 3))
  | 0x19 => .ok (.getMagnet (field w 0 3))
  | 0x1A => .ok .getCompass
  | 0x1B => .ok (.getOrient (field w 0 3))
  | op => .error (.reservedOp op)

/-- The word whose op field is op and whose operand field w[26:0] is args (R86). -/
def opWord (op args : Nat) : Word := BitVec.ofNat 32 (op * 2 ^ 27 + args)

/-- An 8-bit field holding v in two's complement (`pct & 0xFF` of R93). -/
def byteField (v : Int) : Nat := (v % 256).toNat

/-- One bit as a number. -/
def bitField (b : Bool) : Nat := if b then 1 else 0

/-- The command word of an op, by the syntax table of R93, with every reserved bit 0. -/
def encode : Instr → Word
  | .nop => opWord 0x00 0
  | .init => opWord 0x01 0
  | .stopAll => opWord 0x02 0
  | .setAllLeds r g b => opWord 0x03 (r * 2 ^ 16 + g * 2 ^ 8 + b)
  | .setSingleLed port r g b => opWord 0x04 (port * 2 ^ 24 + r * 2 ^ 16 + g * 2 ^ 8 + b)
  | .resetEncoders => opWord 0x05 0
  | .readSensors => opWord 0x06 0
  | .move dir spd amt => opWord 0x07 (bitField dir * 2 ^ 26 + byteField spd * 2 ^ 16 + amt)
  | .turn dir spd amt => opWord 0x08 (bitField dir * 2 ^ 26 + byteField spd * 2 ^ 16 + amt)
  | .setWheels lspd rspd => opWord 0x09 (byteField lspd * 2 ^ 8 + byteField rspd)
  | .xferRaw len fill => opWord 0x0A (len * 2 ^ 8 + fill.toNat)
  | .refresh maxAge => opWord 0x0B maxAge
  | .getDistance => opWord 0x10 0
  | .getLight sel => opWord 0x11 sel
  | .getLine sel => opWord 0x12 sel
  | .getBattery => opWord 0x13 0
  | .getEncoder sel => opWord 0x14 sel
  | .getPosflag => opWord 0x15 0
  | .getAccel sel => opWord 0x18 sel
  | .getMagnet sel => opWord 0x19 sel
  | .getCompass => opWord 0x1A 0
  | .getOrient sel => opWord 0x1B sel

/-- The word whose bits, numbered as the opcode table numbers them, are the low nbits bits of w. A command
word is one 32-bit write, so the numbering is the word's own (R86, R92). -/
def tableWord (nbits w : Nat) : Word := BitVec.ofNat 32 (w % 2 ^ nbits)

/-- What the decoder reads from that word. -/
def decodeTableWord (nbits w : Nat) : Option Instr :=
  match decode (tableWord nbits w) with
  | .ok i => some i
  | .error _ => none

end Sys2Proof
end

