-- ==== Sys2Proof/Config.lean ====
section
/-! DEFINITION. The parameters of R9 to R11, what the environment supplies in a step, and the free values. -/

namespace Sys2Proof

/-- The order in which a byte's bits travel (SPI_BIT_ORDER, R11). -/
inductive BitOrder where
  | msbFirst
  | lsbFirst
deriving DecidableEq, Repr, Inhabited

/-- The OPEN parameters as the spec stores them (R9, R10, R11).
A default value given here only shows that a legal value exists: no statement reads it. -/
structure Params where
  /-- N_CTX, 1..16 (R9). -/
  nCtx : Nat := 1
  /-- The six opcode bytes, pairwise distinct (R9, R97). -/
  opcStop : Byte := 0
  opcSetAll : Byte := 1
  opcMotor : Byte := 2
  opcSingle : Byte := 3
  opcRead : Byte := 4
  opcResetEnc : Byte := 5
  /-- POS_FLAG_BYTE, 6 or 7 (R9). -/
  posFlagByte : Fin 16 := 6
  /-- K_SPD, UQ16.16 (R10). -/
  kSpd : Word
  /-- MIN_MAG, 0..127 (R10). -/
  minMag : Fin 128
  /-- K_TPC, K_TPD, K_DIST and K_BAT, each UQ16.16 (R10). -/
  kTpc : Word
  kTpd : Word
  kDist : Word
  kBat : Word
  /-- K_BATOFF, SQ15.16 (R10). -/
  kBatOff : Word
  /-- K_TPR, UQ16.16, nonzero (R10). -/
  kTpr : Word := 1
  /-- ENC_DEC, 0..4 (R10). -/
  encDec : Fin 5
  /-- LINE_OFFSET, −100..100 (R10). -/
  lineOffset : Int
  /-- LC[s][t], SQ15.16, side s and term t (R10, R153). -/
  lc : Vector (Vector Word 10) 2
  /-- C_MNT and S_MNT, SQ1.14 (R10). -/
  cMnt : BitVec 16
  sMnt : BitVec 16
  /-- ORIENT_T, 0..32767 (R10). -/
  orientT : Fin 32768
  /-- STALE_WINDOW (R10). -/
  staleWindow : Word
  /-- ACQ_MAX, at least 1 (R11). -/
  acqMax : Nat := 1
  /-- The wire and time parameters of R11 that no byte-level rule depends on (R8, R209; log 5).
  SPI_CPOL is true for an idle level of 1. -/
  spiCpol : Bool
  spiCpha : Bool
  spiBitOrder : BitOrder
  sclkHz : Nat
  tCsLead : Nat
  tByteGap : Nat
  tCsLag : Nat
  tu : Nat
deriving DecidableEq, Repr, Inhabited

/-- The legal values of R9, R10 and R11 that the types do not give already. -/
def Params.legal (p : Params) : Bool :=
  decide (1 ≤ p.nCtx) && decide (p.nCtx ≤ 16)
    && decide [p.opcStop, p.opcSetAll, p.opcMotor, p.opcSingle, p.opcRead, p.opcResetEnc].Nodup
    && (p.posFlagByte == 6 || p.posFlagByte == 7)
    && !(p.kTpr == 0)
    && decide (-100 ≤ p.lineOffset) && decide (p.lineOffset ≤ 100)
    && decide (1 ≤ p.acqMax)

/-- A configuration: parameters with legal values (R9 to R12, R65). -/
structure Config extends Params where
  isLegal : toParams.legal = true := by decide
deriving DecidableEq, Repr, Inhabited

/-- POLL_INTERVAL, in time units (R11, R208). -/
abbrev Config.pollInterval : Nat := 10

/-- COMPASS_TOL, in degrees (R11, R165). -/
abbrev Config.compassTol : Nat := 1

/-- The input pins a step samples (R29, R31), the device's byte of a byte slot (R109, log 5), and the
draw of GET_COMPASS (R165, log 13). -/
structure Pins where
  accX : BitVec 16
  accY : BitVec 16
  accZ : BitVec 16
  magX : BitVec 16
  magY : BitVec 16
  magZ : BitVec 16
  shake : Bool
  miso : Byte
  compassDraw : Nat
deriving DecidableEq, Repr, Inhabited

/-- One access of the host: the address, the four byte enables, and for a write the word (R29, R70). -/
inductive HostAccess where
  | read (addr : BitVec 12) (be : BitVec 4)
  | write (addr : BitVec 12) (be : BitVec 4) (data : Word)
deriving DecidableEq, Repr, Inhabited

/-- What steps next (R28): the host, context k, the reset pin, or nothing but time. -/
inductive Act where
  | quiet
  | host (a : HostAccess)
  | ctx (k : Nat)
  | rst (level : Bool)
deriving DecidableEq, Repr, Inhabited

/-- The environment's choice for one step (log 2): the time units that passed before it, the input
pins, the level of mosi outside a byte (log 6), and who steps. -/
structure Event where
  elapsed : Nat
  pins : Pins
  mosi : Bool
  act : Act
deriving DecidableEq, Repr, Inhabited

/-- FREE VALUE: the machine's parameters (R12, log 1). -/
opaque Config.profile : Config

/-- FREE VALUE: the environment's n-th choice once State's script is used up (log 2). -/
opaque Config.freeEvent : Nat → Event

/-- FREE VALUE: the time input at reset (R30, log 14). -/
opaque Config.freeNow : Word

/-- FREE VALUE: the input pins at reset (R31, log 14). -/
opaque Config.freePins : Pins

/-- FREE VALUE: mosi at reset (R66, log 6). -/
opaque Config.freeMosi : Bool

end Sys2Proof
end

