-- ==== Sys2Proof/Machine/State.lean ====
section
/-! DEFINITION. The state of ZIGGY-XCVR (10_state.md) as plain data, its reset value, and the reasons to stop. -/

namespace Sys2Proof.Machine

/-- ctx[k].PHASE (R49). -/
inductive Phase where
  | idle
  | decode
  | age
  | poll
  | xfer
  | commit
deriving DecidableEq, Repr, Inhabited

/-- ctx[k].RCODE: the five codes of R169. The values 5, 6 and 7 are never written (R169, 93 U16). -/
inductive RCode where
  | ok
  | dropped
  | rejected
  | noxfer
  | illegal
deriving DecidableEq, Repr, Inhabited

/-- The kind of a transaction (R118). -/
inductive Kind where
  | sensorRead
  | other
deriving DecidableEq, Repr, Inhabited

/-- ctx[k].LAT (R48): the op, the kind of its transaction, and the clamped operands its frame and its
value are computed from. A field an op does not use keeps its value here. -/
structure Latch where
  op : Instr
  kind : Kind := .other
  /-- The clamped port (R129). -/
  port : Nat := 0
  /-- The clamped colour (R128). -/
  red : Percent := 0
  green : Percent := 0
  blue : Percent := 0
  /-- The velocity bytes and the tick count of a motor op (R131, R133). -/
  velL : Byte := 0
  velR : Byte := 0
  ticks : BitVec 24 := 0
  /-- LAT.F of XFER_RAW: the normalised copy of TXBUF (R127). -/
  raw : Frame := Vector.replicate 16 0
  /-- REFRESH's MAXAGE, widened (R151). -/
  maxAge : Word := 0
  /-- The clamped selector: a side, an axis or a pose (R89). -/
  sel : Nat := 0
deriving DecidableEq, Repr, Inhabited

/-- The state of one context (R41), and the time units until its next poll is due (R50 step 4; log 3). -/
structure Ctx where
  cmd : Word
  busy : Bool
  ovr : Bool
  rcode : RCode
  /-- RESULT as its 32-bit two's-complement word (R59). -/
  result : Word
  txbuf : Frame
  rxbuf : Frame
  phase : Phase
  polls : Nat
  /-- `none` is the spec's "empty". -/
  lat : Option Latch
  wait : Nat
deriving DecidableEq, Repr, Inhabited

/-- A context at reset (R41, R187). -/
def Ctx.reset : Ctx where
  cmd := 0
  busy := false
  ovr := false
  rcode := .ok
  result := 0
  txbuf := Vector.replicate 16 0
  rxbuf := Vector.replicate 16 0
  phase := .idle
  polls := 0
  lat := none
  wait := 0

/-- The whole state. -/
structure State where
  /-- The parameters, which no step writes (R65, log 1). -/
  cfg : Config
  /-- G.READY (R33). -/
  ready : Bool
  /-- G.INIT_DONE (R34). -/
  initDone : Bool
  /-- G.OWNER; `none` is NONE (R35). -/
  owner : Option Nat
  /-- G.XFER (R36). -/
  xfer : Bool
  /-- G.BEAK_R, G.BEAK_G and G.BEAK_B (R37). -/
  beakR : Percent
  beakG : Percent
  beakB : Percent
  /-- SNAP[0..15] (R38). -/
  snap : Frame
  /-- G.SNAP_TIME (R39). -/
  snapTime : Word
  /-- The contexts 0..N_CTX−1 (R40, R41). -/
  ctxs : List Ctx
  /-- The output ports cs_n, sclk, mosi and h_rdata (R29, R66; log 6, log 9). -/
  csN : Bool
  sclk : Bool
  mosi : Bool
  hRdata : Word
  /-- The input ports rst_n, now and the sampled pins (R29 to R31; log 14). -/
  rstN : Bool
  now : Word
  pins : Pins
  /-- The transaction in progress: the frame sent, the frame received, the next byte slot, and the byte
  last shifted out on mosi (R109, R50 step 5; log 4, log 17). -/
  tx : Frame
  rx : Frame
  slot : Fin 16
  slotOut : Byte
  /-- The model's own: the context whose step runs, the environment's coming events, and how many free
  events were taken (log 2, log 17). -/
  cur : Nat
  script : List Event
  draws : Nat
deriving DecidableEq, Repr, Inhabited

/-- Every piece of the block's state at its reset value, for given parameters (R66, R187); the fields that
reset does not set take the model's values (log 6, log 9, log 14, log 17). -/
def State.atReset (cfg : Config) : State where
  cfg := cfg
  ready := false
  initDone := false
  owner := none
  xfer := false
  beakR := 0
  beakG := 0
  beakB := 0
  snap := Vector.replicate 16 0
  snapTime := 0
  ctxs := Ctx.reset :: List.replicate (cfg.nCtx - 1) Ctx.reset
  csN := true
  sclk := cfg.spiCpol
  mosi := Config.freeMosi
  hRdata := 0
  rstN := true
  now := Config.freeNow
  pins := Config.freePins
  tx := Vector.replicate 16 0
  rx := Vector.replicate 16 0
  slot := 0
  slotOut := 0
  cur := 0
  script := []
  draws := 0

/-- The machine right after reset (R66, R186, R187). -/
def State.reset : State := State.atReset Config.profile

/-- The reasons a step stops with a fault. -/
inductive Fault where
  /-- R70, R174: the host accessed an address with bits [1:0] not 0, or without all four byte enables.
  Raised by a host access. Safe: the spec gives no state after it. -/
  | badAccess (addr : BitVec 12) (be : BitVec 4)
  /-- A context stands in a phase that its op does not have (R50). Raised by every op's meaning. Safe: no
  run reaches it (log 10). -/
  | phaseNotOfOp
  /-- A context is past its decode step and its LAT is empty (R48). Raised by the steps that read LAT.
  Safe: no run reaches it (log 10). -/
  | latchEmpty
  /-- A transaction or a commit runs without the claim that R109 and R117 require. Raised by the xfer and
  commit steps. Safe: no run reaches it (log 10). -/
  | claimNotHeld
deriving DecidableEq, Repr, Inhabited

/-- The reasons a step has no meaning. -/
inductive Refusal where
  /-- Raised by exec for an instruction with no meaning yet; no arm is left that does. Safe. -/
  | notModelled (mnemonic : String)
deriving DecidableEq, Repr, Inhabited

/-- What a step answers. -/
abbrev StepResult := Host.Outcome State Fault Refusal

end Sys2Proof.Machine
end

