-- ==== Sys2Proof/Machine/Operands.lean ====
section
/-! DEFINITION. Operand clamping and the shared arithmetic (R15, R16, R88, R89, R100, R128 to R133, R147, R160). -/

namespace Sys2Proof.Machine

/-- clamp(x, lo, hi) (R16). -/
def clamp (x lo hi : Int) : Int := min (max x lo) hi

/-- sat32 (R147). -/
def sat32 (v : Int) : Int := clamp v (-2147483648) 2147483647

/-- rnd(k / 2^16) of an integer k, as the equations write it: (k + 32768) >>a 16 (R14, R15). -/
def rnd16 (k : Int) : Int := (k + 32768) / 65536

/-- rnd(k / 2^14), as the rotations write it (R160). -/
def rnd14 (k : Int) : Int := (k + 8192) / 16384

/-- Colour clamping (R128). -/
def clampColour (c : Nat) : Percent := ⟨min c 100, by omega⟩

/-- Port clamping (R129). -/
def clampPort (p : Nat) : Nat := min p 4

/-- Percent clamping (R130). -/
def clampSpeed (s : Int) : Int := clamp s (-100) 100

/-- The side of a SEL operand: 0 left, 1 right (R89). -/
def clampSide (sel : Nat) : Nat := min sel 1

/-- The axis of a SEL operand: 0 X, 1 Y, 2 Z (R89). -/
def clampDim (sel : Nat) : Nat := min sel 2

/-- The pose of a SEL operand (R89). -/
def clampKind (sel : Nat) : Nat := min sel 6

/-- cb(c), the colour byte (R100). -/
def colourByte (c : Percent) : Byte := BitVec.ofNat 8 ((c.val * 255 + 50) / 100)

/-- The magnitude of convertSpeed: rounded, floored up to MIN_MAG, saturated to 7 bits (R131). -/
def speedMagnitude (cfg : Config) (p : Int) : Nat :=
  let m0 := (p.natAbs * cfg.kSpd.toNat + 32768) / 65536
  let m1 := if m0 ≠ 0 ∧ m0 < cfg.minMag.val then cfg.minMag.val else m0
  min m1 127

/-- convertSpeed(p), the velocity byte (R98, R131). -/
def convertSpeed (cfg : Config) (p : Int) : Byte :=
  let m := BitVec.ofNat 8 (speedMagnitude cfg p)
  if 0 < p then 0x80#8 ||| m else 0x7F#8 &&& m

/-- ticks(a, K), before it is written in 24 bits (R133). -/
def ticks (a : Nat) (k : Word) : Nat := min ((a * k.toNat + 32768) / 65536) 0xFFFFFF

/-- The sign s of a direction bit (R142, R143). -/
def dirSign (dir : Bool) : Int := if dir then -1 else 1

/-- rotA(x, y, z) for C and S (R160). -/
def rotA (c s : Int) (v : Int × Int × Int) : Int × Int × Int :=
  (v.1, rnd14 (v.2.1 * c - v.2.2 * s), rnd14 (v.2.1 * s + v.2.2 * c))

/-- rotM(x, y, z) for C and S (R160). -/
def rotM (c s : Int) (v : Int × Int × Int) : Int × Int × Int :=
  (v.1, rnd14 (v.2.1 * c + v.2.2 * s), rnd14 (v.2.2 * c - v.2.1 * s))

/-- The component of a vector that dim names (R163, R164). -/
def axis (v : Int × Int × Int) (dim : Nat) : Int :=
  match dim with
  | 0 => v.1
  | 1 => v.2.1
  | _ => v.2.2

/-- The sampled acceleration after rotA (R159, R160). -/
def rotatedAccel (cfg : Config) (p : Pins) : Int × Int × Int :=
  rotA cfg.cMnt.toInt cfg.sMnt.toInt (p.accX.toInt, p.accY.toInt, p.accZ.toInt)

/-- The sampled magnetic field after rotM (R159, R160). -/
def rotatedMagnet (cfg : Config) (p : Pins) : Int × Int × Int :=
  rotM cfg.cMnt.toInt cfg.sMnt.toInt (p.magX.toInt, p.magY.toInt, p.magZ.toInt)

end Sys2Proof.Machine
end

