-- ==== Sys2Proof/Machine/Frames.lean ====
section
/-! DEFINITION. The wire frames (R95 to R107) and their packing into registers (R76). -/

namespace Sys2Proof.Machine

/-- A frame of an opcode and fifteen fillers (R95). -/
def filledFrame (opc fill : Byte) : Frame :=
  #v[opc, fill, fill, fill, fill, fill, fill, fill, fill, fill, fill, fill, fill, fill, fill, fill]

/-- The Stop frame (R101). -/
def stopFrame (cfg : Config) : Frame := filledFrame cfg.opcStop 0xFF

/-- The ReadSensors frame (R105). -/
def readFrame (cfg : Config) : Frame := filledFrame cfg.opcRead 0xFF

/-- The ResetEncoders frame (R106). -/
def resetEncFrame (cfg : Config) : Frame := filledFrame cfg.opcResetEnc 0xFF

/-- The SetAllLEDs frame for a beak colour and a tail colour (R102). -/
def setAllFrame (cfg : Config) (br bg bb r g b : Percent) : Frame :=
  #v[cfg.opcSetAll, colourByte br, colourByte bg, colourByte bb,
     colourByte r, colourByte g, colourByte b, colourByte r, colourByte g, colourByte b,
     colourByte r, colourByte g, colourByte b, colourByte r, colourByte g, colourByte b]

/-- The SetSingleLED frame (R103). -/
def setSingleFrame (cfg : Config) (port : Nat) (r g b : Percent) : Frame :=
  #v[cfg.opcSingle, BitVec.ofNat 8 port, colourByte r, colourByte g, colourByte b,
     0, 0, 0, 0, 0, 0, 0, 0, 0, 0, 0]

/-- The SetMotor frame (R104), with each tick field most significant byte first (R99). -/
def motorFrame (cfg : Config) (vl : Byte) (tl : BitVec 24) (vr : Byte) (tr : BitVec 24) : Frame :=
  #v[cfg.opcMotor, vl, tl.extractLsb' 16 8, tl.extractLsb' 8 8, tl.extractLsb' 0 8,
     vr, tr.extractLsb' 16 8, tr.extractLsb' 8 8, tr.extractLsb' 0 8,
     0xFF, 0xFF, 0xFF, 0xFF, 0xFF, 0xFF, 0xFF]

/-- The first len bytes of buf, padded with fill (R96, R127). -/
def paddedFrame (buf : Frame) (len : Nat) (fill : Byte) : Frame :=
  Vector.ofFn fun i => if i.val < len then buf[i] else fill

/-- The 32-bit word n of a frame, byte 4n+j in bits [8j+7 : 8j] (R76). -/
def packWord (f : Frame) (n : Fin 4) : Word :=
  f[4 * n.val + 3] ++ f[4 * n.val + 2] ++ f[4 * n.val + 1] ++ f[4 * n.val]

/-- A frame with its word n replaced (R75, R76). -/
def unpackWord (f : Frame) (n : Fin 4) (w : Word) : Frame :=
  Vector.ofFn fun i => if i.val / 4 = n.val then w.extractLsb' (8 * (i.val % 4)) 8 else f[i]

end Sys2Proof.Machine
end

