-- ==== Sys2Proof/Machine/Ops.lean ====
section
/-! DEFINITION. The shared operations of the op rules: reading and writing a context, finish, the arbiter, the
transaction, commit, the staleness test, and the op skeletons of R124 and R147. The block takes no exceptions
(R176): `finish` is what ends every op, in the part of a raise (R20). -/

namespace Sys2Proof.Machine

/-! ### Contexts -/

/-- Context k (R40). A number that names no context reads as one at reset. -/
def State.ctx (s : State) (k : Nat) : Ctx := s.ctxs.getD k Ctx.reset

/-- The context whose step runs. -/
def State.me (s : State) : Ctx := s.ctx s.cur

/-- A write of context k. A number that names no context writes nothing. -/
def State.updCtx (s : State) (k : Nat) (f : Ctx → Ctx) : State := { s with ctxs := s.ctxs.modify k f }

/-- A write of the context whose step runs. -/
def State.updMe (s : State) (f : Ctx → Ctx) : State := s.updCtx s.cur f

/-! ### Sequencing (R50, R51) -/

/-- finish(k, code, result) (R51). -/
def finish (code : RCode) (result : Int) (s : State) : State :=
  s.updMe fun c =>
    { c with rcode := code, result := BitVec.ofInt 32 result, busy := false, phase := .idle, polls := 0 }

/-- The decode step's write of LAT (R48). -/
def latch (l : Latch) (s : State) : State := s.updMe fun c => { c with lat := some l }

/-- POLLS <- 0; PHASE <- POLL. The first poll is due at once (R50 step 4, R115). -/
def goPoll (s : State) : State := s.updMe fun c => { c with polls := 0, wait := 0, phase := .poll }

/-- PHASE <- AGE (R50 step 2). -/
def goAge (s : State) : State := s.updMe fun c => { c with phase := .age }

/-- A step that reads LAT (R48). -/
def withLatch (s : State) (f : Latch → StepResult) : StepResult :=
  match s.me.lat with
  | some l => f l
  | none => .fault .latchEmpty

/-! ### The Bus Arbiter (R114 to R119) -/

/-- The successful poll: the claim and the phase change (R115). -/
def claim (s : State) : State :=
  { s with ready := false, owner := some s.cur }.updMe fun c => { c with phase := .xfer }

/-- One poll (R115). `timeout` is the op's own end after the ACQ_MAX-th failed poll (R116). -/
def pollStep (timeout : State → State) (s : State) : State :=
  if s.ready then claim s
  else if s.me.polls + 1 = s.cfg.acqMax then
    timeout (s.updMe fun c => { c with polls := c.polls + 1 })
  else
    s.updMe fun c => { c with polls := c.polls + 1, wait := Config.pollInterval }

/-- release(k) (R117). -/
def release (s : State) : State := { s with ready := true, owner := none }

/-! ### The Frame Transport (R108 to R113) -/

/-- The start of a transaction: G.XFER <- 1, cs_n <- 0, and the frame to send (R109). -/
def beginFrame (f : Frame) (s : State) : State := { s with xfer := true, csN := false, tx := f, slot := 0 }

/-- exchange(F[i]): byte i goes out on mosi and the device's byte comes in (R109, R110, R112). -/
def exchange (s : State) : State :=
  { s with slotOut := s.tx[s.slot.val], rx := s.rx.set s.slot.val s.pins.miso }

/-- The end of a transaction: cs_n <- 1, G.XFER <- 0, PHASE <- COMMIT (R109, R124). -/
def endFrame (s : State) : State :=
  { s with xfer := false, csN := true, slot := 0 }.updMe fun c => { c with phase := .commit }

/-- One byte step of the xfer step (R50 step 5, R109; log 4): byte 0 builds the frame and asserts
chip-select, byte 15 deasserts it. -/
def byteStep (build : Latch → State → Frame) (l : Latch) (s : State) : State :=
  let s1 := exchange (if s.xfer then s else beginFrame (build l s) s)
  if s1.slot = 15 then endFrame s1 else { s1 with slot := s1.slot + 1 }

/-- The xfer step, which requires the claim (R109). -/
def xferStep (build : Latch → State → Frame) (s : State) : StepResult :=
  if s.owner = some s.cur then withLatch s fun l => .next (byteStep build l s)
  else .fault .claimNotHeld

/-! ### Commit (R118) -/

/-- commit(k, F, R, kind) without the op's own effect: SNAP and RXBUF take the received frame, and a sensor
read stamps the snapshot (R118). -/
def commitFrame (kind : Kind) (s : State) : State :=
  { s with snap := s.rx, snapTime := if kind = Kind.sensorRead then s.now else s.snapTime }.updMe
    fun c => { c with rxbuf := s.rx }

/-- The commit step: commit, the op's own effect, release, finish OK, all in one step (R50 step 6, R124,
R147). `value` is the op's RESULT, read after the commit. It requires the claim (R117). -/
def commitStep (effect : Latch → State → State) (value : Latch → State → Int) (s : State) : StepResult :=
  if s.owner = some s.cur then
    withLatch s fun l =>
      let s1 := release (effect l (commitFrame l.kind s))
      .next (finish .ok (value l s1) s1)
  else .fault .claimNotHeld

/-! ### Staleness (R146) -/

/-- stale(t, m) (R146). -/
def stale (t m : Word) (s : State) : Bool := decide (m.toNat < (t - s.snapTime).toNat)

/-! ### The op skeletons -/

/-- A local op: all its work is in its decode step (R50 step 2, R81). -/
def localOp (l : Latch) (work : State → State) (s : State) : StepResult :=
  match s.me.phase with
  | .decode => .next (work (latch l s))
  | .idle | .age | .poll | .xfer | .commit => .fault .phaseNotOfOp

/-- The end of a plain bus op's decode step: a decode check ends the op with its code, or the op goes on to
its polls (R50 step 2, R124). -/
def decodeEnd (stop : Option RCode) (s : State) : State :=
  match stop with
  | some code => finish code 0 s
  | none => goPoll s

/-- The skeleton of a plain bus op (R124). `stop` is the decode check that ends the op without a
transaction, with its code. -/
def plainOp (l : Latch) (stop : Option RCode) (build : Latch → State → Frame)
    (effect : Latch → State → State) (s : State) : StepResult :=
  match s.me.phase with
  | .decode => .next (decodeEnd stop (latch l s))
  | .poll => .next (pollStep (finish .dropped 0) s)
  | .xfer => xferStep build s
  | .commit => commitStep effect (fun _ _ => 0) s
  | .idle | .age => .fault .phaseNotOfOp

/-- The op's own effect of an op that has none (R118). -/
def noEffect (_ : Latch) (s : State) : State := s

/-- The sequence of a cache op (R147, R151): the age step tests the snapshot against `maxAge`; `fresh` ends
the op without a transaction, `drop` ends it on a timeout, and `value` is its RESULT after its own sensor read. -/
def cacheOp (l : Latch) (maxAge : Latch → State → Word) (fresh drop : Latch → State → State)
    (value : Latch → State → Int) (s : State) : StepResult :=
  match s.me.phase with
  | .decode => .next (goAge (latch l s))
  | .age => withLatch s fun l' => .next (if stale s.now (maxAge l' s) s then goPoll s else fresh l' s)
  | .poll => withLatch s fun l' => .next (pollStep (drop l') s)
  | .xfer => xferStep (fun _ s' => readFrame s'.cfg) s
  | .commit => commitStep noEffect value s
  | .idle => .fault .phaseNotOfOp

/-- The getter sequence (R147) for a getter's `eval`. -/
def getterOp (l : Latch) (eval : Latch → State → Int) (s : State) : StepResult :=
  cacheOp l (fun _ s' => s'.cfg.staleWindow) (fun l' s' => finish .ok (sat32 (eval l' s')) s')
    (fun l' s' => finish .dropped (sat32 (eval l' s')) s') (fun l' s' => sat32 (eval l' s')) s

end Sys2Proof.Machine
end

