-- ==== Sys2Proof/Machine/Leds.lean ====
section
/-! DEFINITION. STOP_ALL, RESET_ENCODERS, READ_SENSORS, SET_ALL_LEDS and SET_SINGLE_LED (R137 to R141). -/

namespace Sys2Proof.Machine

/-- STOP_ALL (R137). -/
def execStopAll (s : State) : StepResult :=
  plainOp { op := .stopAll } none (fun _ s' => stopFrame s'.cfg) noEffect s

/-- RESET_ENCODERS (R140). -/
def execResetEncoders (s : State) : StepResult :=
  plainOp { op := .resetEncoders } none (fun _ s' => resetEncFrame s'.cfg) noEffect s

/-- READ_SENSORS (R141). -/
def execReadSensors (s : State) : StepResult :=
  plainOp { op := .readSensors, kind := .sensorRead } none (fun _ s' => readFrame s'.cfg) noEffect s

/-- SET_ALL_LEDS's frame, with the beak colour as it stands in the xfer step (R124, R138). -/
def setAllBuild (l : Latch) (s : State) : Frame :=
  setAllFrame s.cfg s.beakR s.beakG s.beakB l.red l.green l.blue

/-- SET_ALL_LEDS (R138). -/
def execSetAllLeds (r g b : Nat) (s : State) : StepResult :=
  plainOp { op := .setAllLeds r g b, red := clampColour r, green := clampColour g, blue := clampColour b }
    none setAllBuild noEffect s

/-- SET_SINGLE_LED's own effect at its commit: port 0 is the beak (R37, R139). -/
def setSingleEffect (l : Latch) (s : State) : State :=
  if l.port = 0 then { s with beakR := l.red, beakG := l.green, beakB := l.blue } else s

/-- SET_SINGLE_LED (R139). -/
def execSetSingleLed (port r g b : Nat) (s : State) : StepResult :=
  plainOp { op := .setSingleLed port r g b, port := clampPort port, red := clampColour r, green := clampColour g,
            blue := clampColour b }
    none (fun l s' => setSingleFrame s'.cfg l.port l.red l.green l.blue) setSingleEffect s

end Sys2Proof.Machine
end

