-- ==== Sys2Proof/Machine/Motion.lean ====
section
/-! DEFINITION. MOVE, TURN and SET_WHEELS (R134, R142 to R145). -/

namespace Sys2Proof.Machine

/-- The zero-tick guard (R134). -/
def zeroTickGuard (t : Nat) : Option RCode := if t = 0 then some .noxfer else none

/-- The SetMotor frame of a bounded motion: the same tick count on both sides (R142, R143). -/
def boundedBuild (l : Latch) (s : State) : Frame := motorFrame s.cfg l.velL l.ticks l.velR l.ticks

/-- MOVE (R142). -/
def execMove (dir : Bool) (spd : Int) (amt : Nat) (s : State) : StepResult :=
  let v := convertSpeed s.cfg (dirSign dir * clampSpeed spd)
  let t := ticks amt s.cfg.kTpc
  plainOp { op := .move dir spd amt, velL := v, velR := v, ticks := BitVec.ofNat 24 t } (zeroTickGuard t)
    boundedBuild noEffect s

/-- TURN (R143). -/
def execTurn (dir : Bool) (spd : Int) (amt : Nat) (s : State) : StepResult :=
  let p := dirSign dir * clampSpeed spd
  let t := ticks amt s.cfg.kTpd
  plainOp { op := .turn dir spd amt, velL := convertSpeed s.cfg p, velR := convertSpeed s.cfg (-p),
            ticks := BitVec.ofNat 24 t } (zeroTickGuard t) boundedBuild noEffect s

/-- SET_WHEELS (R144): zero ticks, with no zero-tick guard. -/
def execSetWheels (lspd rspd : Int) (s : State) : StepResult :=
  plainOp { op := .setWheels lspd rspd, velL := convertSpeed s.cfg (clampSpeed lspd),
            velR := convertSpeed s.cfg (clampSpeed rspd) }
    none (fun l s' => motorFrame s'.cfg l.velL 0 l.velR 0) noEffect s

end Sys2Proof.Machine
end

