-- ==== Sys2Proof/Machine/Compass.lean ====
section
/-! DEFINITION. The arithmetic of GET_COMPASS (R165, R166) without real numbers (log 12).

Write (gx, gy, gz) and (bx, by, bz) for the rotated vectors of R165. With n = gy² + gz², the sines and cosines of
phi are integers over √n; with P = gz² − gy² and q = gx²·n + P², those of th are integers over √q. So
x2 = A/√q and y2 = B/√n for integers A and B, and the heading is the angle of (B√q, A√n). -/

namespace Sys2Proof.Machine

/-- The sign of gz, with the sign of a roll of ±90° taken into gy when gz = 0 (atanQ of R165). -/
def signOr1 (v : Int) : Int := if v < 0 then -1 else 1

/-- n = gy² + gz², zero exactly when the roll is degenerate (R165). -/
def rollNorm (g : Int × Int × Int) : Int := g.2.1 * g.2.1 + g.2.2 * g.2.2

/-- P = gz² − gy²: D of R165 is signOr1(gz)·P/√n, so P = 0 exactly when D = 0. -/
def pitchNum (g : Int × Int × Int) : Int := g.2.2 * g.2.2 - g.2.1 * g.2.1

/-- q = gx²·n + P², zero exactly when the pitch is degenerate (R165). -/
def pitchNorm (g : Int × Int × Int) : Int := g.1 * g.1 * rollNorm g + pitchNum g * pitchNum g

/-- A, with x2 = A/√q (R165, R166). -/
def levelX (g b : Int × Int × Int) : Int :=
  let bz1 := b.2.2 * (g.2.2.natAbs : Int) - b.2.1 * g.2.1 * signOr1 g.2.2
  b.1 * ((pitchNum g).natAbs : Int) + bz1 * g.1 * signOr1 (signOr1 g.2.2 * pitchNum g)

/-- B, with y2 = B/√n (R165, R166). -/
def levelY (g b : Int × Int × Int) : Int :=
  b.2.1 * (g.2.2.natAbs : Int) + b.2.2 * g.2.1 * signOr1 g.2.2

/-- The three degenerate inputs of R165. -/
def compassDegenerate (g b : Int × Int × Int) : Bool :=
  (rollNorm g == 0) || (pitchNorm g == 0) || (levelX g b == 0 && levelY g b == 0)

/-- Sign changes, zeros skipped, along the Chebyshev values u, … of T_m(p/d)·d^m: v is the value before u, and
neg is the sign of the last nonzero value (log 12). -/
def chebyshevChanges (p d : Int) : Nat → Int → Int → Bool → Nat
  | 0, _, _, _ => 0
  | m + 1, u, v, neg =>
    let next := 2 * p * u - d * d * v
    if 0 < u then (if neg then 1 else 0) + chebyshevChanges p d m next u false
    else if u < 0 then (if neg then 0 else 1) + chebyshevChanges p d m next u true
    else chebyshevChanges p d m next u neg

/-- rnd of the angle in degrees, 0..90, whose double has cosine p/d: the number of odd degrees below the double,
which are the roots of T_90, counted by the sign changes of T_0, …, T_90 (log 12). -/
def quarterDegrees (p d : Int) : Nat := chebyshevChanges p d 90 p 1 false

/-- The exact heading h of R165 for a vector of signs and squares (x2·√n·√q)² = A²n and (y2·√n·√q)² = B²q. -/
def headingOf (a b n q : Int) : Nat :=
  let sx := a * a * n
  let sy := b * b * q
  let r := quarterDegrees (sy - sx) (sy + sx)
  if 0 ≤ a then (if 0 ≤ b then r else 180 - r)
  else if b < 0 then 180 + r else (360 - r) % 360

/-- The exact heading h of R165, or `none` on a degenerate input. -/
def compassHeading (g b : Int × Int × Int) : Option Nat :=
  if compassDegenerate g b then none
  else some (headingOf (levelX g b) (levelY g b) (rollNorm g) (pitchNorm g))

/-- The drawn result: any of 0..359 on a degenerate input, else any heading within COMPASS_TOL of h, circularly
(R165, log 13). -/
def compassValue (heading : Option Nat) (draw : Nat) : Nat :=
  match heading with
  | none => draw % 360
  | some h => (h + 360 - Config.compassTol + draw % (2 * Config.compassTol + 1)) % 360

end Sys2Proof.Machine
end

