-- ==== Sys2Proof/Machine/Orientation.lean ====
section
/-! DEFINITION. GET_ACCEL, GET_MAGNET, GET_COMPASS and GET_ORIENT (R159 to R168). -/

namespace Sys2Proof.Machine

/-- GET_ACCEL (R163). -/
def execGetAccel (sel : Nat) (s : State) : StepResult :=
  localOp { op := .getAccel sel, sel := clampDim sel }
    (fun s' => finish .ok (axis (rotatedAccel s'.cfg s'.pins) (clampDim sel)) s') s

/-- GET_MAGNET (R164). -/
def execGetMagnet (sel : Nat) (s : State) : StepResult :=
  localOp { op := .getMagnet sel, sel := clampDim sel }
    (fun s' => finish .ok (axis (rotatedMagnet s'.cfg s'.pins) (clampDim sel)) s') s

/-- GET_COMPASS (R165). -/
def execGetCompass (s : State) : StepResult :=
  localOp { op := .getCompass }
    (fun s' => finish .ok
      (compassValue (compassHeading (rotatedAccel s'.cfg s'.pins) (rotatedMagnet s'.cfg s'.pins))
        s'.pins.compassDraw) s') s

/-- The pose test of a kind 0..6 (R168). -/
def poseTest (t : Int) (g : Int × Int × Int) (shake : Bool) (kind : Nat) : Bool :=
  match kind with
  | 0 => decide (g.2.1 < -t)
  | 1 => decide (t < g.2.1)
  | 2 => decide (g.1 < -t)
  | 3 => decide (t < g.1)
  | 4 => decide (g.2.2 < -t)
  | 5 => decide (t < g.2.2)
  | _ => shake

/-- GET_ORIENT (R168). -/
def execGetOrient (sel : Nat) (s : State) : StepResult :=
  localOp { op := .getOrient sel, sel := clampKind sel }
    (fun s' => finish .ok
      (if poseTest s'.cfg.orientT.val (rotatedAccel s'.cfg s'.pins) s'.pins.shake (clampKind sel) then 1 else 0) s') s

end Sys2Proof.Machine
end

