-- ==== Sys2Proof/Machine/Raw.lean ====
section
/-! DEFINITION. XFER_RAW (R96, R127). -/

namespace Sys2Proof.Machine

/-- LAT of XFER_RAW; the frame is copied and normalised in the decode step (R46, R96, R127). -/
def rawLatch (len : Nat) (fill : Byte) (s : State) : Latch :=
  { op := .xferRaw len fill, raw := if 16 < len then Vector.replicate 16 0 else paddedFrame s.me.txbuf len fill }

/-- XFER_RAW (R127). -/
def execXferRaw (len : Nat) (fill : Byte) (s : State) : StepResult :=
  plainOp (rawLatch len fill s) (if 16 < len then some .rejected else none) (fun l _ => l.raw) noEffect s

end Sys2Proof.Machine
end

