-- ==== Sys2Proof/Machine/Sensors.lean ====
section
/-! DEFINITION. REFRESH and the six sensor getters (R146 to R158). -/

namespace Sys2Proof.Machine

/-- REFRESH (R151). -/
def execRefresh (maxAge : Nat) (s : State) : StepResult :=
  cacheOp { op := .refresh maxAge, kind := .sensorRead, maxAge := BitVec.ofNat 32 maxAge } (fun l _ => l.maxAge)
    (fun _ s' => finish .noxfer 0 s') (fun _ s' => finish .dropped 0 s') (fun _ _ => 0) s

/-- GET_DISTANCE's eval (R152). -/
def evalDistance (_ : Latch) (s : State) : Int :=
  rnd16 ((s.snap[2].toNat * 256 + s.snap[3].toNat : Nat) * s.cfg.kDist.toNat)

/-- GET_DISTANCE (R152). -/
def execGetDistance (s : State) : StepResult :=
  getterOp { op := .getDistance, kind := .sensorRead } evalDistance s

/-- A snapshot byte, by an index that the channel map of R107 keeps below 16. -/
def snapByte (s : State) (i : Nat) : Nat := (s.snap.toList.getD i 0).toNat

/-- LC[side][t], a stored SQ15.16 integer (R10). -/
def lightCoeff (cfg : Config) (side t : Nat) : Int :=
  ((cfg.lc.toList.getD side (Vector.replicate 10 0)).toList.getD t 0).toInt

/-- The light correction times 2^16: the ten terms of degree at most 2 in the beak percentages (R153). -/
def lightCorrection (cfg : Config) (side : Nat) (r g b : Int) : Int :=
  lightCoeff cfg side 0 * 1 + lightCoeff cfg side 1 * r + lightCoeff cfg side 2 * g + lightCoeff cfg side 3 * b
    + lightCoeff cfg side 4 * (r * r) + lightCoeff cfg side 5 * (g * g) + lightCoeff cfg side 6 * (b * b)
    + lightCoeff cfg side 7 * (r * g) + lightCoeff cfg side 8 * (r * b) + lightCoeff cfg side 9 * (g * b)

/-- GET_LIGHT's eval (R153). -/
def evalLight (l : Latch) (s : State) : Int :=
  rnd16 (clamp ((snapByte s (4 + l.sel) : Int) * 65536
    - lightCorrection s.cfg l.sel s.beakR.val s.beakG.val s.beakB.val) 0 (100 * 65536))

/-- GET_LIGHT (R153). -/
def execGetLight (sel : Nat) (s : State) : StepResult :=
  getterOp { op := .getLight sel, kind := .sensorRead, sel := clampSide sel } evalLight s

/-- GET_LINE's eval (R154). -/
def evalLine (l : Latch) (s : State) : Int :=
  let raw := snapByte s (6 + l.sel) % 128
  clamp (100 - (((raw * 200 + 127) / 254 : Nat) : Int) + s.cfg.lineOffset) 0 100

/-- GET_LINE (R154). -/
def execGetLine (sel : Nat) (s : State) : StepResult :=
  getterOp { op := .getLine sel, kind := .sensorRead, sel := clampSide sel } evalLine s

/-- GET_BATTERY's eval (R155). -/
def evalBattery (_ : Latch) (s : State) : Int :=
  rnd16 ((s.snap[8].toNat : Int) * s.cfg.kBat.toNat + s.cfg.kBatOff.toInt)

/-- GET_BATTERY (R155). -/
def execGetBattery (s : State) : StepResult :=
  getterOp { op := .getBattery, kind := .sensorRead } evalBattery s

/-- The 24-bit two's-complement count whose most significant byte is snapshot byte i (R77, R156). -/
def encoderCount (s : State) (i : Nat) : Int :=
  let u := snapByte s i * 65536 + snapByte s (i + 1) * 256 + snapByte s (i + 2)
  if u < 8388608 then (u : Int) else (u : Int) - 16777216

/-- GET_ENCODER's eval (R156). -/
def evalEncoder (l : Latch) (s : State) : Int :=
  let num := encoderCount s (9 + 3 * l.sel) * 10 ^ s.cfg.encDec.val * 65536
  (2 * num + s.cfg.kTpr.toNat) / (2 * s.cfg.kTpr.toNat)

/-- GET_ENCODER (R156). -/
def execGetEncoder (sel : Nat) (s : State) : StepResult :=
  getterOp { op := .getEncoder sel, kind := .sensorRead, sel := clampSide sel } evalEncoder s

/-- GET_POSFLAG's eval (R157). -/
def evalPosflag (_ : Latch) (s : State) : Int := ((s.snap[s.cfg.posFlagByte.val].toNat / 128 : Nat) : Int)

/-- GET_POSFLAG (R157). -/
def execGetPosflag (s : State) : StepResult :=
  getterOp { op := .getPosflag, kind := .sensorRead } evalPosflag s

end Sys2Proof.Machine
end

