-- ==== Sys2Proof/Machine/System.lean ====
section
/-! DEFINITION. NOP, INIT, and the end of a reserved op (R91, R125, R126, R185). -/

namespace Sys2Proof.Machine

/-- NOP (R125). -/
def execNop (s : State) : StepResult := localOp { op := .nop } (finish .ok 0) s

/-- The first INIT's effect; a second INIT changes nothing (R126, R192). -/
def initEffect (s : State) : State :=
  if s.initDone then s else { s with initDone := true, ready := true }

/-- INIT (R126). -/
def execInit (s : State) : StepResult := localOp { op := .init } (fun s' => finish .ok 0 (initEffect s')) s

/-- The decode step of a word with a reserved OP: finish(k, ILLEGAL, 0) and nothing else (R91, log 15). -/
def finishIllegal (s : State) : State := finish .illegal 0 s

end Sys2Proof.Machine
end

