-- ==== Sys2Proof/Machine/Dispatch.lean ====
section
/-! DEFINITION. One arm per op: the next step of that op in the context that State.cur names. -/

namespace Sys2Proof.Machine

/-- The next step (R50) of op i, run by the context cur, in the phase that context stands in. -/
def exec (i : Instr) (s : State) : Host.Outcome State Fault Refusal :=
  match i with
  | .nop => Sys2Proof.Machine.execNop s
  | .init => Sys2Proof.Machine.execInit s
  | .stopAll => Sys2Proof.Machine.execStopAll s
  | .setAllLeds r g b => Sys2Proof.Machine.execSetAllLeds r g b s
  | .setSingleLed port r g b => Sys2Proof.Machine.execSetSingleLed port r g b s
  | .resetEncoders => Sys2Proof.Machine.execResetEncoders s
  | .readSensors => Sys2Proof.Machine.execReadSensors s
  | .move dir spd amt => Sys2Proof.Machine.execMove dir spd amt s
  | .turn dir spd amt => Sys2Proof.Machine.execTurn dir spd amt s
  | .setWheels lspd rspd => Sys2Proof.Machine.execSetWheels lspd rspd s
  | .xferRaw len fill => Sys2Proof.Machine.execXferRaw len fill s
  | .refresh maxAge => Sys2Proof.Machine.execRefresh maxAge s
  | .getDistance => Sys2Proof.Machine.execGetDistance s
  | .getLight sel => Sys2Proof.Machine.execGetLight sel s
  | .getLine sel => Sys2Proof.Machine.execGetLine sel s
  | .getBattery => Sys2Proof.Machine.execGetBattery s
  | .getEncoder sel => Sys2Proof.Machine.execGetEncoder sel s
  | .getPosflag => Sys2Proof.Machine.execGetPosflag s
  | .getAccel sel => Sys2Proof.Machine.execGetAccel sel s
  | .getMagnet sel => Sys2Proof.Machine.execGetMagnet sel s
  | .getCompass => Sys2Proof.Machine.execGetCompass s
  | .getOrient sel => Sys2Proof.Machine.execGetOrient sel s

end Sys2Proof.Machine
end

