-- ==== Sys2Proof/Machine/Environment.lean ====
section
/-! DEFINITION. What the environment does to the machine: the next event, the passing of time, the input pins,
and reset (R28 to R31, R115, R186 to R189; log 2, log 3, log 8). -/

namespace Sys2Proof.Machine

/-- The next event: the script's first, or a free one once the script is used up (log 2). -/
def nextEvent (s : State) : Event :=
  match s.script with
  | e :: _ => e
  | [] => Config.freeEvent s.draws

/-- The state with that event taken. -/
def dropEvent (s : State) : State :=
  match s.script with
  | _ :: rest => { s with script := rest }
  | [] => { s with draws := s.draws + 1 }

/-- How much of an elapsed time passes: no later poll is passed over when it is due, while a first poll is a
step like any other (R50 step 4, R115, R207, log 3). -/
def timeSlack (cs : List Ctx) (dt : Nat) : Nat :=
  cs.foldr (fun c m => if c.phase = .poll ∧ 0 < c.polls then min m c.wait else m) dt

/-- A context's remaining wait after d time units (R115). -/
def waited (d : Nat) (c : Ctx) : Ctx := if c.phase = .poll then { c with wait := c.wait - d } else c

/-- The passing of time: `now` advances modulo 2^32 (R30). -/
def passTime (dt : Nat) (s : State) : State :=
  { s with now := s.now + BitVec.ofNat 32 (timeSlack s.ctxs dt)
           ctxs := s.ctxs.map (waited (timeSlack s.ctxs dt)) }

/-- An event's time and pins (log 2, log 6, log 14). -/
def observe (e : Event) (s : State) : State := passTime e.elapsed { s with pins := e.pins, mosi := e.mosi }

/-- The reset pin: while it is 0 the block's state stands at its reset values (R66, R186, R187, R189). The
parameters, the inputs and the environment are not the block's to reset (R65, R188). -/
def setRst (level : Bool) (s : State) : State :=
  if level then { s with rstN := true }
  else { State.atReset s.cfg with
          mosi := s.mosi, now := s.now, pins := s.pins, rstN := false, script := s.script, draws := s.draws }

end Sys2Proof.Machine
end

