-- ==== Sys2Proof/Machine/Flags.lean ====
section
/-! DEFINITION. The block has no condition codes (R62): its flags are status bits, packed here into the
words of GSTATUS, BEAK, GCONFIG and STATUS (R54, R55, R56, R58). -/

namespace Sys2Proof.Machine

/-- A flag as a bit of a word. -/
def flagBit (b : Bool) : Nat := if b then 1 else 0

/-- The 3-bit value of RCODE (R169). -/
def RCode.value : RCode → Nat
  | .ok => 0
  | .dropped => 1
  | .rejected => 2
  | .noxfer => 3
  | .illegal => 4

/-- GSTATUS (R54). -/
def gstatusWord (s : State) : Word :=
  BitVec.ofNat 32 (flagBit s.ready + 2 * flagBit s.initDone + 4 * flagBit s.xfer
    + 8 * flagBit s.owner.isSome + 16 * (s.owner.getD 0 % 16))

/-- BEAK (R55). -/
def beakWord (s : State) : Word :=
  BitVec.ofNat 32 (s.beakR.val + 256 * s.beakG.val + 65536 * s.beakB.val)

/-- GCONFIG (R56). -/
def gconfigWord (s : State) : Word := BitVec.ofNat 32 (s.cfg.nCtx % 32)

/-- STATUS (R58). -/
def statusWord (c : Ctx) : Word :=
  BitVec.ofNat 32 (flagBit c.busy + 2 * flagBit c.ovr + 16 * c.rcode.value)

end Sys2Proof.Machine
end

