-- ==== Sys2Proof/Machine/Window.lean ====
section
/-! DEFINITION. The register window and the host's accesses (R67 to R76, R186). -/

namespace Sys2Proof.Machine

/-- A read at a context's block offset (R57 to R61, R69, R71). -/
def ctxRead (c : Ctx) (off : Nat) : Word :=
  match off with
  | 0x00 => c.cmd
  | 0x04 => statusWord c
  | 0x08 => c.result
  | 0x10 => packWord c.txbuf 0
  | 0x14 => packWord c.txbuf 1
  | 0x18 => packWord c.txbuf 2
  | 0x1C => packWord c.txbuf 3
  | 0x20 => packWord c.rxbuf 0
  | 0x24 => packWord c.rxbuf 1
  | 0x28 => packWord c.rxbuf 2
  | 0x2C => packWord c.rxbuf 3
  | _ => 0

/-- regval(a): what an aligned read at offset a returns (R54 to R61, R68, R69, R71, R72). -/
def regRead (s : State) (a : BitVec 12) : Word :=
  if a.toNat < 0x100 then
    match a.toNat with
    | 0x000 => gstatusWord s
    | 0x004 => beakWord s
    | 0x008 => gconfigWord s
    | _ => 0
  else
    match s.ctxs[(a.toNat - 0x100) / 0x40]? with
    | some c => ctxRead c ((a.toNat - 0x100) % 0x40)
    | none => 0

/-- A write of CMD: the accept step, or OVR when the context is busy (R42, R43, R73). -/
def cmdWrite (w : Word) (c : Ctx) : Ctx :=
  if c.busy then { c with ovr := true } else { c with cmd := w, busy := true, phase := .decode }

/-- A write of STATUS (R74). -/
def statusWrite (w : Word) (c : Ctx) : Ctx := if w.getLsbD 1 then { c with ovr := false } else c

/-- A write at a context's block offset (R69, R71, R73, R74, R75). -/
def ctxWrite (off : Nat) (w : Word) (c : Ctx) : Ctx :=
  match off with
  | 0x00 => cmdWrite w c
  | 0x04 => statusWrite w c
  | 0x10 => { c with txbuf := unpackWord c.txbuf 0 w }
  | 0x14 => { c with txbuf := unpackWord c.txbuf 1 w }
  | 0x18 => { c with txbuf := unpackWord c.txbuf 2 w }
  | 0x1C => { c with txbuf := unpackWord c.txbuf 3 w }
  | _ => c

/-- What an aligned write of w at offset a does (R68, R69, R71). -/
def regWrite (s : State) (a : BitVec 12) (w : Word) : State :=
  if a.toNat < 0x100 then s
  else s.updCtx ((a.toNat - 0x100) / 0x40) (ctxWrite ((a.toNat - 0x100) % 0x40) w)

/-- The access rules: bits [1:0] of the offset 0, all four byte enables (R70). -/
def accessOk (a : BitVec 12) (be : BitVec 4) : Bool := a.toNat % 4 == 0 && be == 0xF

/-- One host access (R70 to R75, R79). While rst_n = 0 a read returns 0 and a write changes nothing (R186, log 8). -/
def hostAccess (h : HostAccess) (s : State) : StepResult :=
  match h with
  | .read a be =>
    if accessOk a be then .next { s with hRdata := if s.rstN then regRead s a else 0 }
    else .fault (.badAccess a be)
  | .write a be w =>
    if accessOk a be then .next (if s.rstN then regWrite s a w else s)
    else .fault (.badAccess a be)

end Sys2Proof.Machine
end

