-- ==== Sys2Proof/Machine/Sequencer.lean ====
section
/-! DEFINITION. Who steps, and what a context's step is (R28, R48, R50; log 2, log 11). -/

namespace Sys2Proof.Machine

/-- The decode step of the context cur: the op of its CMD, or the end of a reserved OP (R86, R91). -/
def decodeStep (s : State) : StepResult :=
  match decode s.me.cmd with
  | .ok i => exec i s
  | .error _ => .next (finishIllegal s)

/-- A later step of the context cur: the op of its LAT (R48). -/
def latchedStep (s : State) : StepResult := withLatch s fun l => exec l.op s

/-- The next step of context k (R50). An idle context, and one whose next poll is not due, has none: nothing
changes (log 11). -/
def ctxStep (k : Nat) (s : State) : StepResult :=
  match s.ctxs[k]? with
  | none => .next s
  | some c =>
    match c.phase with
    | .idle => .next s
    | .decode => decodeStep { s with cur := k }
    | .poll => if c.wait = 0 then latchedStep { s with cur := k } else .next s
    | .age | .xfer | .commit => latchedStep { s with cur := k }

/-- The step of an event's agent. While rst_n = 0 no context steps (R186, log 8). -/
def actStep (a : Act) (s : State) : StepResult :=
  match a with
  | .quiet => .next s
  | .host h => hostAccess h s
  | .ctx k => if s.rstN then ctxStep k s else .next s
  | .rst level => .next (setRst level s)

/-- One step of the machine under the next event (log 2). -/
def eventStep (s : State) : StepResult :=
  actStep (nextEvent s).act (observe (nextEvent s) (dropEvent s))

end Sys2Proof.Machine
end

