-- ==== Sys2Proof/Machine/Step.lean ====
section
/-! DEFINITION. The step of the machine, and how a word is placed so that the next step runs it (log 7). -/

namespace Sys2Proof.Machine

/-- One step (R21, R28, R50; log 2). -/
def step (s : State) : Host.Outcome State Fault Refusal := Sys2Proof.Machine.eventStep s

/-- The state in which context 0 has accepted the word as its CMD (R73) and the next event is that context's
step, with no time passed and the pins as they are. -/
def State.withFetchWord (s : State) (nbits w : Nat) : State :=
  { s with
    rstN := true
    script := { elapsed := 0, pins := s.pins, mosi := s.mosi, act := .ctx 0 } :: s.script
    ctxs := s.ctxs.modify 0 fun c => { c with cmd := tableWord nbits w, busy := true, phase := .decode } }

end Sys2Proof.Machine
end

