-- ==== Sys2Proof/Safety.lean ====
section
/-! DEFINITION. What a safe run is: the invariant of every reachable state (R64), what a finished op leaves, what
a step leaves alone, and the run of one op's steps under given inputs. -/

namespace Sys2Proof.Machine

/-! ### The invariant -/

/-- A context that has passed its decode step (R50). -/
def Phase.latched : Phase → Bool
  | .age | .poll | .xfer | .commit => true
  | .idle | .decode => false

/-- A context between its successful poll and its commit step (R64). -/
def Phase.claimed : Phase → Bool
  | .xfer | .commit => true
  | .idle | .decode | .age | .poll => false

/-- The op class a phase belongs to: only a cache op has an age step, and a local op has none of the four
(R50, R124, R147). -/
def Phase.fits (p : Phase) (i : Instr) : Bool :=
  match p with
  | .idle | .decode => true
  | .age => i.opClass == .cache
  | .poll | .xfer | .commit => !(i.opClass == .localOp)

/-- What holds of each context: BUSY exactly outside IDLE (R42), POLLS below ACQ_MAX between steps (R115), a LAT
that fits the phase (R48, R50), and a poll due within POLL_INTERVAL (R115, log 3). -/
structure CtxInv (cfg : Config) (c : Ctx) : Prop where
  busy_iff : c.busy = true ↔ c.phase ≠ .idle
  polls_lt : c.polls < cfg.acqMax
  latched : c.phase.latched = true → ∃ l, c.lat = some l ∧ c.phase.fits l.op = true
  wait_le : c.wait ≤ Config.pollInterval

/-- The state that reset leaves in the block, whatever the environment does meanwhile (R186, R187). -/
def BlockAtReset (s : State) : Prop :=
  s.ready = false ∧ s.initDone = false ∧ s.owner = none ∧ s.xfer = false
    ∧ s.beakR = 0 ∧ s.beakG = 0 ∧ s.beakB = 0
    ∧ s.snap = Vector.replicate 16 0 ∧ s.snapTime = 0
    ∧ s.ctxs.length = s.cfg.nCtx ∧ (∀ c ∈ s.ctxs, c = Ctx.reset)
    ∧ s.csN = true ∧ s.sclk = s.cfg.spiCpol

/-- The invariant of every reachable state: R64's four clauses (`before_init`, `after_init`, `owner_claimed` and
`xfer_claimed`), and the clauses that make them inductive. The model's own among these are `slot_zero`, about the byte slot
of log 4 (at reset, log 17), `CtxInv.wait_le`, about the wait of log 3 (at reset, log 17), and `sclk_idle`, which is the
reading of log 6 (unsafe) between two byte slots of a transaction. -/
structure Inv (s : State) : Prop where
  ctx_count : s.ctxs.length = s.cfg.nCtx
  before_init : s.initDone = false → s.ready = false ∧ s.owner = none
  after_init : s.initDone = true → (s.ready = true ↔ s.owner = none)
  owner_claimed : ∀ k, s.owner = some k → (s.ctx k).phase.claimed = true
  claimed_owner : ∀ k, (s.ctx k).phase.claimed = true → s.owner = some k
  xfer_claimed : s.xfer = true → ∃ k, s.owner = some k ∧ (s.ctx k).phase = .xfer
  cs_xfer : s.csN = !s.xfer
  slot_zero : s.xfer = false → s.slot = 0
  sclk_idle : s.sclk = s.cfg.spiCpol
  ctx_inv : ∀ c ∈ s.ctxs, CtxInv s.cfg c
  held_reset : s.rstN = false → BlockAtReset s

/-! ### A step and its event -/

/-- The host reads this address next, with all four byte enables. -/
def HostReads (s : State) (a : BitVec 12) : Prop := (nextEvent s).act = .host (.read a 0xF)

/-- The host writes w to this address next, with all four byte enables. -/
def HostWrites (s : State) (a : BitVec 12) (w : Word) : Prop := (nextEvent s).act = .host (.write a 0xF w)

/-- Context k is the next agent to step (R28). -/
def CtxSteps (s : State) (k : Nat) : Prop :=
  s.rstN = true ∧ k < s.ctxs.length ∧ (nextEvent s).act = .ctx k

/-- The reset pin is driven to 0 next. -/
def ResetNext (s : State) : Prop := (nextEvent s).act = .rst false

/-- The state in which the next event's agent steps: the event taken, its time passed, its pins sampled. -/
def observed (s : State) : State := observe (nextEvent s) (dropEvent s)

/-- The state in which context k's step runs. -/
def atStep (s : State) (k : Nat) : State := { observed s with cur := k }

/-! ### What a step leaves -/

/-- Context cur has finished its op with this code and RESULT (R51). -/
def Finished (t : State) (code : RCode) (result : Int) : Prop :=
  t.me.rcode = code ∧ t.me.result = BitVec.ofInt 32 result ∧ t.me.busy = false ∧ t.me.phase = .idle ∧ t.me.polls = 0

/-- Every other context, and CMD, OVR and TXBUF of context cur, are as before. -/
def CtxKept (s t : State) : Prop :=
  t.ctxs.length = s.ctxs.length ∧ (∀ k, k ≠ s.cur → t.ctx k = s.ctx k)
    ∧ t.me.cmd = s.me.cmd ∧ t.me.ovr = s.me.ovr ∧ t.me.txbuf = s.me.txbuf

/-- The beak colour, the snapshot and its time are as before. -/
def CacheKept (s t : State) : Prop :=
  t.beakR = s.beakR ∧ t.beakG = s.beakG ∧ t.beakB = s.beakB ∧ t.snap = s.snap ∧ t.snapTime = s.snapTime

/-- The arbiter's flags are as before. -/
def ArbiterKept (s t : State) : Prop := t.ready = s.ready ∧ t.initDone = s.initDone ∧ t.owner = s.owner

/-- The transport is as before. -/
def TransportKept (s t : State) : Prop :=
  t.xfer = s.xfer ∧ t.csN = s.csN ∧ t.tx = s.tx ∧ t.rx = s.rx ∧ t.slot = s.slot ∧ t.slotOut = s.slotOut

/-- The parameters, the other ports and the environment are as before: no op writes them. R109 clocks sclk and mosi
inside a byte slot; that both are as before at its end is the reading of log 6. -/
def OutsideKept (s t : State) : Prop :=
  t.cfg = s.cfg ∧ t.sclk = s.sclk ∧ t.mosi = s.mosi ∧ t.hRdata = s.hRdata ∧ t.rstN = s.rstN ∧ t.now = s.now
    ∧ t.pins = s.pins ∧ t.cur = s.cur ∧ t.script = s.script ∧ t.draws = s.draws

/-- Everything outside context cur is as before, and so are its CMD, OVR, TXBUF and RXBUF: the frame of a step
that touches no shared state. -/
def OnlyOwnOp (s t : State) : Prop :=
  CtxKept s t ∧ t.me.rxbuf = s.me.rxbuf ∧ CacheKept s t ∧ ArbiterKept s t ∧ TransportKept s t ∧ OutsideKept s t

/-- The context whose step runs exists and stands in phase p. -/
def Standing (s : State) (p : Phase) : Prop := s.cur < s.ctxs.length ∧ s.me.phase = p

/-! ### The run of one op -/

/-- The inputs of one step of an op: the time and the pins (R30, R31, R110). -/
structure StepInput where
  now : Word
  pins : Pins
deriving DecidableEq, Repr, Inhabited

/-- The state with these inputs at the pins. -/
def State.withInput (s : State) (x : StepInput) : State := { s with now := x.now, pins := x.pins }

/-- The steps of op i in context cur, one for each input, with no other agent stepping between them. -/
def opRun (i : Instr) : List StepInput → State → StepResult
  | [], s => .next s
  | x :: xs, s =>
    match exec i (s.withInput x) with
    | .next t => opRun i xs t
    | .fault r => .fault r
    | .refused r => .refused r

/-- The most steps of its own that a context's op can still take (R175): a decode step, an age step, ACQ_MAX polls,
the 16 byte steps of the xfer step (log 4), and a commit step. -/
def stepsLeft (s : State) (k : Nat) : Nat :=
  match (s.ctx k).phase with
  | .idle => 0
  | .decode => s.cfg.acqMax + 19
  | .age => s.cfg.acqMax + 18
  | .poll => s.cfg.acqMax - (s.ctx k).polls + 17
  | .xfer => 17 - s.slot.val
  | .commit => 1

/-- A context's next step is due: it runs an op, and if that op polls, its wait is over (R50). -/
def Due (s : State) (k : Nat) : Prop :=
  s.rstN = true ∧ k < s.ctxs.length ∧ (s.ctx k).phase ≠ .idle ∧ ((s.ctx k).phase = .poll → (s.ctx k).wait = 0)

end Sys2Proof.Machine
end

