-- ==== Sys2Proof/Certificates/Slice0/Obligations.lean ====
section
/-! DEFINITION. The statements about the model, and the spec-side formulas they compare it with: rounding over the
rationals (R15), the wire frames as lists of bytes from an op's own operands (R100 to R106), and the compass over the
reals (R165). -/

namespace Sys2Proof.Claims

open Sys2Proof Sys2Proof.Machine

/-- rnd(x) = floor(x + 1/2) (R15). -/
def rnd (x : ℚ) : Int := ⌊x + 1 / 2⌋

/-- The rational a UQm.16 constant stands for (R17). -/
def uq16 (k : Word) : ℚ := (k.toNat : ℚ) / 65536

/-- The rational an SQ15.16 constant stands for (R17). -/
def sq16 (k : Word) : ℚ := (k.toInt : ℚ) / 65536

/-- The rational an SQ1.14 constant stands for (R17). -/
def sq14 (k : BitVec 16) : ℚ := (k.toInt : ℚ) / 16384

/-- The bus ops of R26. -/
def isBus (i : Instr) : Prop := i.opClass ≠ .localOp

/-- The RESULT of a bus op, evaluated in state s: a getter's value (R147), 0 for every other op (R45). -/
def busResult (i : Instr) (l : Latch) (s : State) : Int :=
  match i with
  | .getDistance => sat32 (evalDistance l s)
  | .getLight _ => sat32 (evalLight l s)
  | .getLine _ => sat32 (evalLine l s)
  | .getBattery => sat32 (evalBattery l s)
  | .getEncoder _ => sat32 (evalEncoder l s)
  | .getPosflag => sat32 (evalPosflag l s)
  | _ => 0

/-! ### Frames from operands -/

/-- cb of a colour operand in percent, after clamping to 0..100 (R100, R128). -/
def colourOf (c : Nat) : Byte := BitVec.ofNat 8 ((min c 100 * 255 + 50) / 100)

/-- The velocity byte of a percent, from R131 and R15 over the rationals. -/
def velocityOf (cfg : Config) (p : Int) : Byte :=
  let m0 := rnd (((p.natAbs : Nat) : ℚ) * uq16 cfg.kSpd)
  let m1 := if m0 ≠ 0 ∧ m0 < cfg.minMag.val then (cfg.minMag.val : Int) else m0
  BitVec.ofInt 8 ((if 0 < p then 128 else 0) + min m1 127)

/-- The tick count of an amount, from R133 and R15 over the rationals. -/
def ticksOf (a : Nat) (k : Word) : Int := min (rnd ((a : ℚ) * uq16 k)) 0xFFFFFF

/-- The three bytes of a tick count, most significant first (R99). -/
def tickBytes (t : Int) : List Byte :=
  [BitVec.ofInt 8 (t / 65536), BitVec.ofInt 8 (t / 256), BitVec.ofInt 8 t]

/-- A SetMotor frame (R104). -/
def motorBytes (cfg : Config) (vl vr : Byte) (t : Int) : List Byte :=
  [cfg.opcMotor, vl] ++ tickBytes t ++ [vr] ++ tickBytes t ++ List.replicate 7 0xFF

/-- s · p of a direction bit and a speed operand (R130, R142, R143). -/
def signedPercent (dir : Bool) (spd : Int) : Int := (if dir then -1 else 1) * min (max spd (-100)) 100

/-- The frame a plain bus op sends when it is built in state s, byte 0 first (R101 to R106, R127, R137 to R144). -/
def wireFrame (i : Instr) (txbuf : Frame) (s : State) : List Byte :=
  match i with
  | .stopAll => s.cfg.opcStop :: List.replicate 15 0xFF
  | .resetEncoders => s.cfg.opcResetEnc :: List.replicate 15 0xFF
  | .readSensors => s.cfg.opcRead :: List.replicate 15 0xFF
  | .setAllLeds r g b =>
    [s.cfg.opcSetAll, colourOf s.beakR.val, colourOf s.beakG.val, colourOf s.beakB.val]
      ++ (List.replicate 4 [colourOf r, colourOf g, colourOf b]).flatten
  | .setSingleLed port r g b =>
    [s.cfg.opcSingle, BitVec.ofNat 8 (min port 4), colourOf r, colourOf g, colourOf b] ++ List.replicate 11 0
  | .move dir spd amt =>
    motorBytes s.cfg (velocityOf s.cfg (signedPercent dir spd)) (velocityOf s.cfg (signedPercent dir spd))
      (ticksOf amt s.cfg.kTpc)
  | .turn dir spd amt =>
    motorBytes s.cfg (velocityOf s.cfg (signedPercent dir spd)) (velocityOf s.cfg (-signedPercent dir spd))
      (ticksOf amt s.cfg.kTpd)
  | .setWheels lspd rspd =>
    motorBytes s.cfg (velocityOf s.cfg (signedPercent false lspd)) (velocityOf s.cfg (signedPercent false rspd)) 0
  | .xferRaw len fill => txbuf.toList.take len ++ List.replicate (16 - len) fill
  | _ => []

/-- The frame a bus op sends, by what its LAT holds: the frame `build` of its skeleton gives (R124, R147). -/
def latchedFrame (i : Instr) (l : Latch) (s : State) : Frame :=
  match i with
  | .stopAll => stopFrame s.cfg
  | .resetEncoders => resetEncFrame s.cfg
  | .setAllLeds _ _ _ => setAllFrame s.cfg s.beakR s.beakG s.beakB l.red l.green l.blue
  | .setSingleLed _ _ _ _ => setSingleFrame s.cfg l.port l.red l.green l.blue
  | .move _ _ _ | .turn _ _ _ => motorFrame s.cfg l.velL l.ticks l.velR l.ticks
  | .setWheels _ _ => motorFrame s.cfg l.velL 0 l.velR 0
  | .xferRaw _ _ => l.raw
  | _ => readFrame s.cfg

/-- The decode check that ends a plain bus op without a transaction, and its code (R127, R134, R170). -/
def decodeCheck (i : Instr) (cfg : Config) : Option RCode :=
  match i with
  | .move _ _ amt => if ticksOf amt cfg.kTpc = 0 then some .noxfer else none
  | .turn _ _ amt => if ticksOf amt cfg.kTpd = 0 then some .noxfer else none
  | .xferRaw len _ => if 16 < len then some .rejected else none
  | _ => none

/-- SET_SINGLE_LED, the one op with its own effect at its commit (R118). -/
def isSingleLed (i : Instr) : Bool :=
  match i with
  | .setSingleLed _ _ _ _ => true
  | _ => false

/-- A SET_SINGLE_LED whose clamped port is the beak (R129, R139). -/
def isBeakOp (i : Instr) : Bool :=
  match i with
  | .setSingleLed port _ _ _ => port == 0
  | _ => false

/-- The colour operands of an op that has them, clamped (R128). -/
def beakOperands (i : Instr) : Percent × Percent × Percent :=
  match i with
  | .setSingleLed _ r g b => (clampColour r, clampColour g, clampColour b)
  | _ => (0, 0, 0)

/-- The ops whose transaction is a sensor read (R118). -/
def readsSensors (i : Instr) : Bool := i == .readSensors || i.opClass == .cache

/-! ### The register window -/

/-- The address of offset off in context k's block (R68). -/
def ctxAddr (k off : Nat) : BitVec 12 := BitVec.ofNat 12 (0x100 + 0x40 * k + off)

/-- The registers of a context's block, by offset (R69). -/
def ctxOffsets : List Nat := [0x00, 0x04, 0x08, 0x10, 0x14, 0x18, 0x1C, 0x20, 0x24, 0x28, 0x2C]

/-- The mapped offsets, for n contexts (R69). -/
def Mapped (n a : Nat) : Prop :=
  a = 0x000 ∨ a = 0x004 ∨ a = 0x008 ∨ ∃ k off, k < n ∧ off ∈ ctxOffsets ∧ a = 0x100 + 0x40 * k + off

/-- The offsets whose register a write can change, for n contexts (R69): CMD, STATUS and TXBUF0 to TXBUF3. -/
def Writable (n a : Nat) : Prop :=
  ∃ k off, k < n ∧ off ∈ [0x00, 0x04, 0x10, 0x14, 0x18, 0x1C] ∧ a = 0x100 + 0x40 * k + off

/-- Word n of a frame: bytes 4n to 4n+3, the first in the low bits (R76). -/
def wordOf (f : Frame) (n : Nat) : Word :=
  BitVec.ofNat 32 ((List.range 4).foldr (fun j w => (f.toList.getD (4 * n + j) 0).toNat + 256 * w) 0)

/-- RCODE's three bits (R169). -/
def rcodeBits (r : RCode) : BitVec 3 :=
  match r with
  | .ok => 0b000#3
  | .dropped => 0b001#3
  | .rejected => 0b010#3
  | .noxfer => 0b011#3
  | .illegal => 0b100#3

/-- The word a context's block shows at an aligned offset (R57 to R61, R71). -/
def ctxRegister (c : Ctx) (off : Nat) : Word :=
  if off = 0x00 then c.cmd
  else if off = 0x04 then 0#25 ++ rcodeBits c.rcode ++ 0#2 ++ BitVec.ofBool c.ovr ++ BitVec.ofBool c.busy
  else if off = 0x08 then c.result
  else if 0x10 ≤ off ∧ off < 0x20 then wordOf c.txbuf ((off - 0x10) / 4)
  else if 0x20 ≤ off ∧ off < 0x30 then wordOf c.rxbuf ((off - 0x20) / 4)
  else 0

/-- The word an aligned offset shows (R54 to R61, R69, R71). -/
def registerWord (s : State) (a : Nat) : Word :=
  if a = 0x000 then
    0#24 ++ BitVec.ofNat 4 (s.owner.getD 0) ++ BitVec.ofBool s.owner.isSome ++ BitVec.ofBool s.xfer
      ++ BitVec.ofBool s.initDone ++ BitVec.ofBool s.ready
  else if a = 0x004 then
    0#8 ++ BitVec.ofNat 8 s.beakB.val ++ BitVec.ofNat 8 s.beakG.val ++ BitVec.ofNat 8 s.beakR.val
  else if a = 0x008 then 0#27 ++ BitVec.ofNat 5 s.cfg.nCtx
  else if 0x100 ≤ a ∧ (a - 0x100) / 0x40 < s.ctxs.length then
    ctxRegister (s.ctx ((a - 0x100) / 0x40)) ((a - 0x100) % 0x40)
  else 0

/-- Only context k differs. -/
def OnlyCtx (k : Nat) (s t : State) : Prop :=
  t = { s with ctxs := t.ctxs } ∧ t.ctxs.length = s.ctxs.length ∧ ∀ j, j ≠ k → t.ctx j = s.ctx j

/-- The address of a host access. -/
def accessAddr (h : HostAccess) : BitVec 12 :=
  match h with
  | .read a _ => a
  | .write a _ _ => a

/-- The byte enables of a host access. -/
def accessEnables (h : HostAccess) : BitVec 4 :=
  match h with
  | .read _ be => be
  | .write _ be _ => be

/-- An access the rules allow: bits [1:0] of the offset 0, all four byte enables set (R70). -/
def Allowed (h : HostAccess) : Prop := (accessAddr h).toNat % 4 = 0 ∧ accessEnables h = 0b1111#4

/-! ### The op of a word -/

/-- The state after a write of CMD and TXBUF of context cur. -/
def rewritten (w : Word) (f : Frame) (s : State) : State := s.updMe fun c => { c with cmd := w, txbuf := f }

/-- A step's answer with its next state changed. -/
def mapNext (f : State → State) (o : StepResult) : StepResult :=
  match o with
  | .next t => .next (f t)
  | .fault r => .fault r
  | .refused r => .refused r

/-- The bits of a command word that its op reads: OP and the operand fields of its format (R86, R87, R91). -/
def readBits (i : Instr) : Word :=
  match i with
  | .nop | .init | .stopAll | .resetEncoders | .readSensors => 0xF8000000
  | .getDistance | .getBattery | .getPosflag | .getCompass => 0xF8000000
  | .setAllLeds _ _ _ => 0xF8FFFFFF
  | .setSingleLed _ _ _ _ => 0xFFFFFFFF
  | .move _ _ _ | .turn _ _ _ => 0xFCFFFFFF
  | .setWheels _ _ => 0xF800FFFF
  | .xferRaw _ _ => 0xF8001FFF
  | .refresh _ => 0xF800FFFF
  | .getLight _ | .getLine _ | .getEncoder _ | .getAccel _ | .getMagnet _ | .getOrient _ => 0xF8000007

/-- The reserved OP values (R91). -/
def reservedOps : List Nat := [0x0C, 0x0D, 0x0E, 0x0F, 0x16, 0x17, 0x1C, 0x1D, 0x1E, 0x1F]

/-! ### Reset -/

/-- The reset values of one context (R41, R187). -/
def CtxAtReset (c : Ctx) : Prop :=
  c.cmd = 0x00000000 ∧ c.busy = false ∧ c.ovr = false ∧ c.rcode = .ok ∧ c.result = 0
    ∧ c.txbuf.toList = List.replicate 16 0x00 ∧ c.rxbuf.toList = List.replicate 16 0x00
    ∧ c.phase = .idle ∧ c.polls = 0 ∧ c.lat = none

/-- The reset values (R66, R187); mosi is unspecified. -/
def AtResetValues (s : State) : Prop :=
  s.ready = false ∧ s.initDone = false ∧ s.owner = none ∧ s.xfer = false
    ∧ s.beakR.val = 0 ∧ s.beakG.val = 0 ∧ s.beakB.val = 0
    ∧ s.snap.toList = List.replicate 16 0x00 ∧ s.snapTime = 0
    ∧ s.ctxs.length = s.cfg.nCtx ∧ (∀ c ∈ s.ctxs, CtxAtReset c)
    ∧ s.csN = true ∧ s.sclk = s.cfg.spiCpol

/-! ### Cache ops -/

/-- The side of a getter that has one: 0 left, 1 right (R89). -/
def sideOf (i : Instr) : Fin 2 :=
  match i with
  | .getLight sel | .getLine sel | .getEncoder sel => if sel = 0 then 0 else 1
  | _ => 0

/-- The greatest age at which a cache op takes the snapshot as fresh (R146, R151). -/
def maxAgeOf (i : Instr) (cfg : Config) : Nat :=
  match i with
  | .refresh m => m
  | _ => cfg.staleWindow.toNat

/-- The age of the snapshot at time t (R146). -/
def ageAt (t : Word) (s : State) : Int := ((t.toNat : Int) - s.snapTime.toNat) % 4294967296

/-- sat32 (R147). -/
def saturated (v : Int) : Int := min (max v (-2147483648)) 2147483647

/-- A getter's age step on a fresh snapshot (R147). -/
def FreshAge (i : Instr) (s : State) : Prop :=
  Standing s .age ∧ (∃ l, s.me.lat = some l ∧ l.sel = (sideOf i).val)
    ∧ ageAt s.now s ≤ (s.cfg.staleWindow.toNat : Int)

/-- The step finishes the op with this code and RESULT and touches nothing else. -/
def FinishesWith (i : Instr) (s : State) (code : RCode) (v : Int) : Prop :=
  ∃ t, exec i s = .next t ∧ Finished t code v ∧ OnlyOwnOp s t

/-- The light correction over the rationals: the ten terms of R153. -/
def lightPoly (lc : Vector Word 10) (r g b : ℚ) : ℚ :=
  sq16 lc[0] + sq16 lc[1] * r + sq16 lc[2] * g + sq16 lc[3] * b + sq16 lc[4] * r ^ 2 + sq16 lc[5] * g ^ 2
    + sq16 lc[6] * b ^ 2 + sq16 lc[7] * (r * g) + sq16 lc[8] * (r * b) + sq16 lc[9] * (g * b)

/-- The encoder's 24 bits of a side, most significant byte first (R107). -/
def encoderBits (s : State) (side : Fin 2) : BitVec 24 :=
  if side = 0 then s.snap[9] ++ s.snap[10] ++ s.snap[11] else s.snap[12] ++ s.snap[13] ++ s.snap[14]

/-! ### Rotations -/

/-- The rotation of R160 by the angle whose cosine and sine are c and t, over the rationals, rounded once. -/
def rotated (c t : ℚ) (x y z : BitVec 16) : Int × Int × Int :=
  (x.toInt, rnd ((y.toInt : ℚ) * c - z.toInt * t), rnd ((y.toInt : ℚ) * t + z.toInt * c))

/-- The rotated acceleration (R160). -/
def accelOf (s : State) : Int × Int × Int :=
  rotated (sq14 s.cfg.cMnt) (sq14 s.cfg.sMnt) s.pins.accX s.pins.accY s.pins.accZ

/-- The rotated magnetic field: the rotation by the opposite angle (R160, R161). -/
def magnetOf (s : State) : Int × Int × Int :=
  rotated (sq14 s.cfg.cMnt) (-sq14 s.cfg.sMnt) s.pins.magX s.pins.magY s.pins.magZ

/-- The component of a vector that SEL names: 0 X, 1 Y, any other Z (R89). -/
def component (v : Int × Int × Int) (sel : Nat) : Int := if sel = 0 then v.1 else if sel = 1 then v.2.1 else v.2.2

/-- E(v) of R162, for C and S. -/
def roundTripBound (c t v : Int) : Int :=
  ⌊((|v| * |c ^ 2 + t ^ 2 - 2 ^ 28| : Int) : ℚ) / 2 ^ 28 + ((|c| + |t| : Int) : ℚ) / 2 ^ 15 + 1 / 2⌋

/-- Whether the pose a SEL names holds (R89, R168). -/
def Pose (g : Int × Int × Int) (shake : Bool) (t : Int) (sel : Nat) : Prop :=
  (sel = 0 ∧ g.2.1 < -t) ∨ (sel = 1 ∧ t < g.2.1) ∨ (sel = 2 ∧ g.1 < -t) ∨ (sel = 3 ∧ t < g.1)
    ∨ (sel = 4 ∧ g.2.2 < -t) ∨ (sel = 5 ∧ t < g.2.2) ∨ (6 ≤ sel ∧ shake = true)

/-! ### The zero-tick guard as an invariant -/

/-- MOVE and TURN. -/
def isBounded (i : Instr) : Bool :=
  match i with
  | .move _ _ _ | .turn _ _ _ => true
  | _ => false

/-- Every MOVE or TURN past its decode step has a nonzero tick count in its LAT (R134). -/
def TicksNonzero (s : State) : Prop :=
  ∀ c ∈ s.ctxs, ∀ l, c.phase.latched = true → c.lat = some l → isBounded l.op = true → l.ticks ≠ 0

/-- The 24-bit field at bytes j to j+2 of a frame, most significant byte first (R99). -/
def tickField (f : Frame) (j : Nat) : Nat :=
  (f.toList.getD j 0).toNat * 65536 + (f.toList.getD (j + 1) 0).toNat * 256 + (f.toList.getD (j + 2) 0).toNat

/-! ### The compass over the reals -/

/-- atanQ(n, d), where it is not degenerate (R165). -/
noncomputable def atanQ (n d : ℝ) : ℝ := if d ≠ 0 then Real.arctan (n / d) else Real.sign n * (Real.pi / 2)

/-- phi, the roll (R165). -/
noncomputable def roll (g : Int × Int × Int) : ℝ := atanQ (-(g.2.1 : ℝ)) g.2.2

/-- D (R165). -/
noncomputable def pitchBase (g : Int × Int × Int) : ℝ :=
  (g.2.1 : ℝ) * Real.sin (roll g) + (g.2.2 : ℝ) * Real.cos (roll g)

/-- th, the pitch (R165). -/
noncomputable def pitch (g : Int × Int × Int) : ℝ := atanQ g.1 (pitchBase g)

/-- x2 (R165, R166). -/
noncomputable def fieldX (g b : Int × Int × Int) : ℝ :=
  (b.1 : ℝ) * Real.cos (pitch g)
    + ((b.2.1 : ℝ) * Real.sin (roll g) + (b.2.2 : ℝ) * Real.cos (roll g)) * Real.sin (pitch g)

/-- y2 (R165, R166). -/
noncomputable def fieldY (g b : Int × Int × Int) : ℝ :=
  (b.2.1 : ℝ) * Real.cos (roll g) - (b.2.2 : ℝ) * Real.sin (roll g)

/-- The three degenerate inputs of R165. -/
def Degenerate (g b : Int × Int × Int) : Prop :=
  (g.2.1 = 0 ∧ g.2.2 = 0) ∨ (g.1 = 0 ∧ pitchBase g = 0) ∨ (fieldX g b = 0 ∧ fieldY g b = 0)

/-- H, in [0, 360): atan2(x2, y2) is the angle of the point (y2, x2) (R165). -/
noncomputable def realHeading (g b : Int × Int × Int) : ℝ :=
  let a := Complex.arg ⟨fieldY g b, fieldX g b⟩ * 180 / Real.pi
  if a < 0 then a + 360 else a

/-- The circular distance of two headings 0..359. -/
def circularDistance (v h : Nat) : Nat := min ((v + 360 - h) % 360) ((h + 360 - v) % 360)

end Sys2Proof.Claims

open Sys2Proof Sys2Proof.Machine Sys2Proof.Claims

/-! ### Encoding -/

/-- Ten words assembled by hand from R87, R90 and R93 decode to the ops they stand for, and the word of a reserved OP is
rejected by name (R91; that the decoder rejects it is log 15's reading). -/
def Obligations.SpecWordsDecode : Prop :=
  decode 0x08000000 = .ok .init
    ∧ decode 0x1F643200 = .ok (.setAllLeds 100 50 0)
    ∧ decode 0x27C8141E = .ok (.setSingleLed 7 200 20 30)
    ∧ decode 0x3C32000A = .ok (.move true 50 10)
    ∧ decode 0x4032005A = .ok (.turn false 50 90)
    ∧ decode 0x4800CE64 = .ok (.setWheels (-50) 100)
    ∧ decode 0x500003EE = .ok (.xferRaw 3 0xEE)
    ∧ decode 0x5800FFFF = .ok (.refresh 65535)
    ∧ decode 0xA0000001 = .ok (.getEncoder 1)
    ∧ decode 0xD8000007 = .ok (.getOrient 7)
    ∧ decode 0x60000000 = .error (.reservedOp 0x0C)

/-- Decoding the encoding of a well-formed op gives the op back, with every operand (R86 to R93). -/
def Obligations.DecodeOfEncode : Prop := ∀ i : Instr, i.wellFormed = true → decode (encode i) = .ok i

/-- Decoding reads OP and the operand bits of the op's format and nothing else, each op is well formed, and its
encoding is the word with every other bit 0 (R86, R87, R91). -/
def Obligations.DecodeReadsOperandBits : Prop :=
  ∀ (w : Word) (i : Instr), decode w = .ok i →
    i.wellFormed = true ∧ encode i = w &&& readBits i
      ∧ ∀ w' : Word, w' &&& readBits i = w &&& readBits i → decode w' = .ok i

/-- The decode step of a word finishes the op ILLEGAL exactly when its OP is one of the ten reserved values; it then
changes nothing else, and every other OP decodes to an op (R91; that LAT too is kept is log 15's reading). -/
def Obligations.ReservedOpFinishesIllegal : Prop :=
  (∀ (s : State) (k : Nat), CtxSteps s k → (s.ctx k).phase = .decode → field (s.ctx k).cmd 27 5 ∈ reservedOps →
    ∃ t, step s = .next t ∧ Finished t .illegal 0 ∧ OnlyOwnOp (atStep s k) t ∧ t.me.lat = (s.ctx k).lat)
    ∧ (∀ (s : State) (k : Nat), CtxSteps s k → (s.ctx k).phase = .decode → field (s.ctx k).cmd 27 5 ∉ reservedOps →
      ∃ t, step s = .next t ∧ ((t.ctx k).phase = .idle → (t.ctx k).rcode ≠ .illegal))
    ∧ ∀ w : Word, field w 27 5 ∉ reservedOps → ∃ i, decode w = .ok i

/-! ### A step runs its op -/

/-- In its decode step a context runs the op its CMD decodes to, in the state that the event's time and pins give
(R48, R50, R86). That the event is the head of the script, and the rest of the script is left, is the model's own way to
say who steps (log 2). -/
def Obligations.StepRunsDecodedOp : Prop :=
  ∀ (s : State) (k : Nat) (i : Instr), CtxSteps s k → (s.ctx k).phase = .decode → decode (s.ctx k).cmd = .ok i →
    step s = exec i (atStep s k) ∧ (atStep s k).pins = (nextEvent s).pins
      ∧ ∀ e rest, s.script = e :: rest → nextEvent s = e ∧ (atStep s k).script = rest

/-- In a later step a context runs the op in its LAT (R48, R50). When a poll is due is log 3's reading, and that the step of
a context whose poll is not due, or that is idle, changes nothing but the time and the pins is the model's choice (log 11). -/
def Obligations.StepRunsLatchedOp : Prop :=
  ∀ (s : State) (k : Nat), CtxSteps s k →
    (∀ l, (s.ctx k).phase.latched = true → (s.ctx k).lat = some l →
      ((s.ctx k).phase = .poll → (atStep s k).me.wait = 0) → step s = exec l.op (atStep s k))
      ∧ ((s.ctx k).phase = .poll → (atStep s k).me.wait ≠ 0 → step s = .next (observed s))
      ∧ ((s.ctx k).phase = .idle → step s = .next (observed s))

/-- After its decode step an op does not read CMD or TXBUF: rewriting both changes nothing in what a step of the op
does (R46, R48, R84). -/
def Obligations.LaterStepsReadOnlyLatch : Prop :=
  ∀ (i : Instr) (s : State) (w : Word) (f : Frame), s.me.phase.latched = true →
    exec i (rewritten w f s) = mapNext (rewritten w f) (exec i s)

/-! ### The register window -/

/-- R73: a CMD write to an idle context is the accept step; to a busy one it sets OVR; beyond the contexts it
changes nothing; and an op starts in no other way. -/
def Obligations.CmdWriteStartsOp : Prop :=
  (∀ (s : State) (k : Nat) (w : Word), s.rstN = true → s.ctxs.length ≤ 16 → k < s.ctxs.length →
    HostWrites s (ctxAddr k 0x00) w → ∃ t, step s = .next t ∧ OnlyCtx k (observed s) t
      ∧ ((s.ctx k).busy = false → t.ctx k = { (observed s).ctx k with cmd := w, busy := true, phase := .decode })
      ∧ ((s.ctx k).busy = true → t.ctx k = { (observed s).ctx k with ovr := true }))
    ∧ (∀ (s : State) (k : Nat) (w : Word), s.rstN = true → s.ctxs.length ≤ k → 0x140 + 0x40 * k ≤ 0x1000 →
      HostWrites s (ctxAddr k 0x00) w → step s = .next (observed s))
    ∧ ∀ (s t : State) (k : Nat), step s = .next t → (s.ctx k).phase = .idle → (t.ctx k).phase ≠ .idle →
      ∃ w, HostWrites s (ctxAddr k 0x00) w ∧ (s.ctx k).busy = false ∧ (t.ctx k).cmd = w
        ∧ (t.ctx k).phase = .decode

/-- R74: a STATUS write clears OVR if bit 1 of the word is 1, and does nothing else. -/
def Obligations.StatusWriteClearsOvr : Prop :=
  ∀ (s : State) (k : Nat) (w : Word), s.rstN = true → s.ctxs.length ≤ 16 → k < s.ctxs.length →
    HostWrites s (ctxAddr k 0x04) w → ∃ t, step s = .next t ∧ OnlyCtx k (observed s) t
      ∧ (w.getLsbD 1 = true → t.ctx k = { (observed s).ctx k with ovr := false })
      ∧ (w.getLsbD 1 = false → t = observed s)

/-- R75: a TXBUFn write, busy or not, replaces bytes 4n to 4n+3 of TXBUF and nothing else, so not the frame that a
running XFER_RAW holds in its LAT. -/
def Obligations.TxbufWriteStoresBytes : Prop :=
  ∀ (s : State) (k : Nat) (n : Fin 4) (w : Word), s.rstN = true → s.ctxs.length ≤ 16 → k < s.ctxs.length →
    HostWrites s (ctxAddr k (0x10 + 4 * n.val)) w → ∃ t, step s = .next t ∧ OnlyCtx k (observed s) t
      ∧ t.ctx k = { (observed s).ctx k with txbuf := (t.ctx k).txbuf }
      ∧ ∀ m : Fin 16, (t.ctx k).txbuf[m] =
          if m.val / 4 = n.val then BitVec.ofNat 8 (w.toNat / 256 ^ (m.val % 4)) else (s.ctx k).txbuf[m]

/-- R72: an aligned read gives the word of the state its register names (R54 to R61), and changes nothing but the
h_rdata port. -/
def Obligations.ReadsReturnRegisters : Prop :=
  ∀ (s : State) (a : BitVec 12), s.rstN = true → a.toNat % 4 = 0 → HostReads s a →
    step s = .next { observed s with hRdata := registerWord s a.toNat }

/-- R71: unmapped offsets read 0; a write to an unmapped or read-only offset changes nothing; reserved bits read 0
and ignore writes. -/
def Obligations.UnmappedAndReservedReadZero : Prop :=
  (∀ (s : State) (a : BitVec 12), s.rstN = true → a.toNat % 4 = 0 → ¬ Mapped s.ctxs.length a.toNat → HostReads s a →
    step s = .next { observed s with hRdata := 0x00000000 })
    ∧ (∀ (s : State) (a : BitVec 12) (w : Word), s.rstN = true → a.toNat % 4 = 0 → ¬ Writable s.ctxs.length a.toNat →
      HostWrites s a w → step s = .next (observed s))
    ∧ (∀ (s t : State) (a : BitVec 12) (n : Nat), s.rstN = true → s.ctxs.length ≤ 16 → HostReads s a → step s = .next t →
      ((a = 0x000 ∧ 8 ≤ n) ∨ (a = 0x004 ∧ 24 ≤ n) ∨ (a = 0x008 ∧ 5 ≤ n)
        ∨ (∃ k, k < s.ctxs.length ∧ a = ctxAddr k 0x04 ∧ (n = 2 ∨ n = 3 ∨ 7 ≤ n))) → t.hRdata.getLsbD n = false)
    ∧ ∀ (s s' : State) (k : Nat) (w w' : Word), s.rstN = true → s.ctxs.length ≤ 16 → k < s.ctxs.length →
      HostWrites s (ctxAddr k 0x04) w → HostWrites s' (ctxAddr k 0x04) w' → observed s' = observed s →
      w'.getLsbD 1 = w.getLsbD 1 → step s' = step s

/-- R70: a host access faults exactly when it breaks the access rules, and the fault names the access. -/
def Obligations.BadAccessFaults : Prop :=
  ∀ (s : State) (h : HostAccess), (nextEvent s).act = .host h →
    (¬ Allowed h → step s = .fault (.badAccess (accessAddr h) (accessEnables h)))
      ∧ (Allowed h → ∃ t, step s = .next t)

/-! ### Reset -/

/-- R187: State.reset holds the reset values, and so does the state that driving rst_n to 0 leaves, from every
state. -/
def Obligations.ResetLeavesStatedValues : Prop :=
  AtResetValues State.reset
    ∧ ∀ s : State, ResetNext s → ∃ t, step s = .next t ∧ AtResetValues t ∧ t.rstN = false ∧ t.cfg = s.cfg

/-- While rst_n = 0, reads give 0, writes change nothing and cs_n stays at 1, and when rst_n returns to 1 the block runs from
its reset values (R186, R187). That no context steps meanwhile is the model's choice (logs 8 and 11). -/
def Obligations.ResetPinHolds : Prop :=
  ∀ s : State, s.rstN = false → AtResetValues s → AtResetValues (observed s) ∧ (observed s).csN = true
    ∧ (∀ a, a.toNat % 4 = 0 → HostReads s a → step s = .next { observed s with hRdata := 0x00000000 })
    ∧ (∀ a w, a.toNat % 4 = 0 → HostWrites s a w → step s = .next (observed s))
    ∧ (∀ k, (nextEvent s).act = .ctx k → step s = .next (observed s))
    ∧ ((nextEvent s).act = .rst true → ∃ t, step s = .next t ∧ t = { observed s with rstN := true }
      ∧ AtResetValues t)

/-! ### The invariant -/

/-- The invariant holds at reset, whatever the parameters are. Its clauses on `slot` and on a context's `wait` are the
model's own: they are about fields of its own, whose reset values log 17 chose. -/
def Obligations.InvAtReset : Prop := Inv State.reset ∧ ∀ cfg : Config, Inv (State.atReset cfg)

/-- Every step of every agent keeps the invariant, R64's four clauses among it. Not all of its clauses are the spec's:
`slot_zero` is about the byte slot of log 4, `wait_le` about the wait of log 3 (log 17 for their reset values), and
`sclk_idle`, that sclk is idle between two byte slots of a transaction too, is log 6's reading, which is unsafe. -/
def Obligations.InvPreserved : Prop := ∀ s t : State, Inv s → step s = .next t → Inv t

/-- Under the invariant a step stops only on a host access that breaks R70: no op faults, and none is refused
(R174, R175). -/
def Obligations.OnlyBadAccessStops : Prop :=
  ∀ s : State, Inv s → (∃ t, step s = .next t)
    ∨ ∃ h, (nextEvent s).act = .host h ∧ ¬ Allowed h
        ∧ step s = .fault (.badAccess (accessAddr h) (accessEnables h))

/-- R119: at most one context holds the claim; it is taken by that context's successful poll, is held until its commit
step or a reset, and only its holder starts a transaction. -/
def Obligations.ClaimHeldUntilRelease : Prop :=
  ∀ s t : State, Inv s → step s = .next t →
    (∀ j k, (s.ctx j).phase.claimed = true → (s.ctx k).phase.claimed = true → j = k)
      ∧ (∀ k, s.owner = some k → t.owner = some k ∨ (t.owner = none
      ∧ (ResetNext s ∨ (CtxSteps s k ∧ (s.ctx k).phase = .commit ∧ t.ready = true))))
      ∧ (∀ k, s.owner = none → t.owner = some k →
        CtxSteps s k ∧ (s.ctx k).phase = .poll ∧ s.ready = true ∧ t.ready = false)
      ∧ (s.xfer = false → t.xfer = true → ∃ k, CtxSteps s k ∧ s.owner = some k ∧ t.owner = some k)

/-- R33: G.READY is 1 exactly when the bus is initialised and free; the first INIT sets it, a successful poll clears
it, release sets it, and nothing else but reset writes it. -/
def Obligations.ReadyHasThreeWriters : Prop :=
  (∀ s : State, Inv s → (s.ready = true ↔ s.initDone = true ∧ s.owner = none))
    ∧ ∀ s t : State, step s = .next t → t.ready ≠ s.ready → ResetNext s ∨ ∃ k, CtxSteps s k
      ∧ (((s.ctx k).phase = .decode ∧ decode (s.ctx k).cmd = .ok .init ∧ s.initDone = false ∧ t.ready = true)
        ∨ ((s.ctx k).phase = .poll ∧ t.ready = false ∧ t.owner = some k)
        ∨ ((s.ctx k).phase = .commit ∧ s.owner = some k ∧ t.ready = true ∧ t.owner = none))

/-- An op has a bounded number of steps of its own left; each of its steps lowers that number, no other agent's step raises
it, and it is 0 exactly when the op has finished (R175). R175 counts one xfer step, so ACQ_MAX + 4 in all; the bound here
is ACQ_MAX + 19 because the model takes that step as 16 byte steps (log 4). -/
def Obligations.OpsFinishInBoundedSteps : Prop :=
  ∀ s : State, Inv s → ∀ k, stepsLeft s k ≤ s.cfg.acqMax + 19
    ∧ (stepsLeft s k = 0 ↔ (s.ctx k).phase = .idle)
    ∧ ∀ t, step s = .next t → (stepsLeft s k ≠ 0 → stepsLeft t k ≤ stepsLeft s k)
      ∧ (CtxSteps s k → Due (atStep s k) k → stepsLeft t k < stepsLeft s k)

/-! ### The arbiter -/

/-- A poll of a bus op: on a ready bus it claims in the same step; on a busy one it counts, and waits POLL_INTERVAL
for the next poll (R115; the wait is kept in a field of the model, log 3). -/
def Obligations.PollClaimsOrCounts : Prop :=
  ∀ (i : Instr) (l : Latch) (s : State), isBus i → Standing s .poll → s.me.lat = some l →
    (s.ready = true → ∃ t, exec i s = .next t ∧ t.ready = false ∧ t.owner = some s.cur ∧ t.initDone = s.initDone
      ∧ t.me = { s.me with phase := .xfer } ∧ CtxKept s t ∧ CacheKept s t ∧ TransportKept s t ∧ OutsideKept s t)
    ∧ (s.ready = false → s.me.polls + 1 ≠ s.cfg.acqMax → ∃ t, exec i s = .next t
      ∧ t.me = { s.me with polls := s.me.polls + 1, wait := Config.pollInterval } ∧ OnlyOwnOp s t)

/-- R116: the ACQ_MAX-th failed poll ends the op DROPPED and applies none of its effects; a getter's RESULT is its
value on the snapshot as it stands, every other op's is 0. -/
def Obligations.TimeoutDropsOp : Prop :=
  ∀ (i : Instr) (l : Latch) (s : State), isBus i → Standing s .poll → s.me.lat = some l → s.ready = false →
    s.me.polls + 1 = s.cfg.acqMax → FinishesWith i s .dropped (busResult i l s)

/-- Later polls come exactly POLL_INTERVAL = 10 apart: a failed poll that is not the last leaves that wait, time passes for
every waiting context alike, never past the moment a later poll is due, and a poll that is not due does not happen
(R50 step 4, R115, R208; that the spacing is exact is the model's reading, log 3, and that such a step changes nothing
but the time and the pins is log 11). -/
def Obligations.PollsAreSpaced : Prop :=
  Config.pollInterval = 10
    ∧ (∀ (i : Instr) (l : Latch) (s : State), isBus i → Standing s .poll → s.me.lat = some l → s.ready = false →
      s.me.polls + 1 ≠ s.cfg.acqMax → ∃ t, exec i s = .next t ∧ t.me.phase = .poll ∧ 0 < t.me.polls
        ∧ t.me.wait = Config.pollInterval)
    ∧ (∀ (s : State) (dt : Nat), ∃ e, e ≤ dt ∧ (passTime dt s).now = s.now + BitVec.ofNat 32 e
    ∧ (∀ k, (s.ctx k).phase = .poll → 0 < (s.ctx k).polls → ((passTime dt s).ctx k).wait + e = (s.ctx k).wait)
    ∧ (e = dt ∨ ∃ k, (s.ctx k).phase = .poll ∧ 0 < (s.ctx k).polls ∧ ((passTime dt s).ctx k).wait = 0))
    ∧ ∀ (s : State) (k : Nat), CtxSteps s k → (s.ctx k).phase = .poll → ((observed s).ctx k).wait ≠ 0 →
      step s = .next (observed s)

/-- The decode step of a plain bus op: a decode check ends it with its code and RESULT 0, or it goes to its polls with
LAT holding the op, its kind and all that its frame is built from (R48, R50, R124, R127 to R134). -/
def Obligations.PlainOpDecodes : Prop :=
  ∀ (i : Instr) (s : State), i.opClass = .plainBus → Standing s .decode →
    (∀ code, decodeCheck i s.cfg = some code → FinishesWith i s code 0)
    ∧ (decodeCheck i s.cfg = none → ∃ t l, exec i s = .next t ∧ OnlyOwnOp s t
      ∧ t.me = { s.me with lat := some l, phase := .poll, polls := 0, wait := 0 }
      ∧ l.op = i ∧ (l.kind = .sensorRead ↔ readsSensors i = true)
      ∧ (isBeakOp i = true → l.port = 0 ∧ (l.red, l.green, l.blue) = beakOperands i)
      ∧ ∀ u : State, u.cfg = s.cfg → (latchedFrame i l u).toList = wireFrame i s.me.txbuf u)

/-- The decode step of a cache op goes to its age step with LAT holding the op, its kind, its side and its greatest age
(R50, R89, R147, R151). -/
def Obligations.CacheOpDecodes : Prop :=
  ∀ (i : Instr) (s : State), i.opClass = .cache → i.wellFormed = true → Standing s .decode →
    ∃ t l, exec i s = .next t ∧ OnlyOwnOp s t ∧ t.me = { s.me with lat := some l, phase := .age }
      ∧ l.op = i ∧ l.kind = .sensorRead ∧ l.sel = (sideOf i).val
      ∧ ∀ m, i = .refresh m → l.maxAge.toNat = m

/-- The commit step of every bus op completes it: SNAP and RXBUF take the received frame, a sensor read stamps the
snapshot, port 0 sets the beak, the claim is released, and the op finishes OK with its value on the snapshot as it then
stands (R50 step 6, R117, R118, R124, R139, R147). That LAT keeps its record after the finish is the model's reading (log
16, unsafe for a claim about LAT after an op has finished). -/
def Obligations.CommitCompletesBusOp : Prop :=
  ∀ (i : Instr) (l : Latch) (s : State), isBus i → Standing s .commit → s.owner = some s.cur → s.me.lat = some l →
    ∃ t, exec i s = .next t ∧ Finished t .ok (busResult i l t)
      ∧ t.snap = s.rx ∧ t.me.rxbuf = s.rx ∧ t.snapTime = (if l.kind = .sensorRead then s.now else s.snapTime)
      ∧ (t.beakR, t.beakG, t.beakB) =
          (if isSingleLed i = true ∧ l.port = 0 then (l.red, l.green, l.blue) else (s.beakR, s.beakG, s.beakB))
      ∧ t.ready = true ∧ t.owner = none ∧ t.initDone = s.initDone ∧ t.me.lat = s.me.lat
      ∧ CtxKept s t ∧ TransportKept s t ∧ OutsideKept s t

/-! ### The transport -/

/-- One byte slot: byte i of the frame goes out and the device's byte comes in, under chip-select, which falls before
byte 0 and rises after byte 15 (R108, R109, R110, R112). That a step is one byte slot is the model's choice (log 4);
that sclk (unsafe) and mosi, which only events write, are as before when the slot ends is its reading of R66 (log 6). -/
def Obligations.ByteSlotExchangesOneByte : Prop :=
  ∀ (i : Instr) (l : Latch) (s : State), isBus i → Standing s .xfer → s.owner = some s.cur → s.me.lat = some l →
    s.csN = !s.xfer → (s.xfer = false → s.slot = 0) →
    ∃ t, exec i s = .next t ∧ t.tx = (if s.xfer then s.tx else latchedFrame i l s)
      ∧ t.slotOut = t.tx[s.slot] ∧ t.rx = s.rx.set s.slot s.pins.miso
      ∧ (s.slot ≠ 15 → t.csN = false ∧ t.xfer = true ∧ t.slot = s.slot + 1 ∧ t.me = s.me)
      ∧ (s.slot = 15 → t.csN = true ∧ t.xfer = false ∧ t.slot = 0 ∧ t.me = { s.me with phase := .commit })
      ∧ CtxKept s t ∧ CacheKept s t ∧ ArbiterKept s t ∧ OutsideKept s t

/-- The xfer step, taken as 16 byte slots (the model's choice, log 4), sends the op's frame byte by byte and returns the
device's bytes, each in its own slot, and ends with chip-select high and the op in its commit phase (R50 step 5, R109 to
R112, R124). -/
def Obligations.TransactionSendsFrame : Prop :=
  ∀ (i : Instr) (l : Latch) (s : State) (xs : List StepInput), isBus i → Standing s .xfer → s.owner = some s.cur →
    s.me.lat = some l → s.xfer = false → s.csN = true → s.slot = 0 → xs.length = 16 →
    ∃ t, opRun i xs s = .next t ∧ t.tx = latchedFrame i l s ∧ t.rx.toList = xs.map (fun x => x.pins.miso)
      ∧ t.csN = true ∧ t.xfer = false ∧ t.slot = 0 ∧ t.me = { s.me with phase := .commit }
      ∧ CtxKept s t ∧ CacheKept s t ∧ ArbiterKept s t
      ∧ ∀ ys zs, xs = ys ++ zs → ys ≠ [] → zs ≠ [] →
        ∃ u, opRun i ys s = .next u ∧ u.csN = false ∧ u.xfer = true ∧ u.slot.val = ys.length

/-- A plain bus op that finds the bus free, from its decode step to its finish: the frame on the wire is the one its
rule gives from its operands, and the state takes exactly its effects (R124, R127, R137 to R144). It is 19 steps because
the model takes the xfer step as 16 (log 4). -/
def Obligations.UncontendedPlainOpRuns : Prop :=
  ∀ (i : Instr) (s : State) (xs : List StepInput), i.opClass = .plainBus → decodeCheck i s.cfg = none →
    Standing s .decode → s.ready = true → s.xfer = false → s.csN = true → s.slot = 0 → xs.length = 19 →
    ∃ t, opRun i xs s = .next t ∧ Finished t .ok 0 ∧ t.tx.toList = wireFrame i s.me.txbuf s
      ∧ t.snap.toList = ((xs.drop 2).take 16).map (fun x => x.pins.miso) ∧ t.me.rxbuf = t.snap
      ∧ t.snapTime = (if readsSensors i then ((xs.drop 18).headD default).now else s.snapTime)
      ∧ (t.beakR, t.beakG, t.beakB) = (if isBeakOp i then beakOperands i else (s.beakR, s.beakG, s.beakB))
      ∧ t.ready = true ∧ t.owner = none ∧ t.initDone = s.initDone ∧ t.xfer = false ∧ t.csN = true
      ∧ t.cfg = s.cfg ∧ CtxKept s t

/-- A getter or a REFRESH that finds the snapshot stale and the bus free, from its decode step to its finish: it makes
one sensor read, and RESULT is its value on the bytes just received (R146, R147, R151). It is 20 steps because the model
takes the xfer step as 16 (log 4). -/
def Obligations.UncontendedCacheOpRuns : Prop :=
  ∀ (i : Instr) (s : State) (xs : List StepInput), i.opClass = .cache → i.wellFormed = true → Standing s .decode →
    s.ready = true → s.xfer = false → s.csN = true → s.slot = 0 → xs.length = 20 →
    (maxAgeOf i s.cfg : Int) < ageAt ((xs.drop 1).headD default).now s →
    ∃ t, opRun i xs s = .next t ∧ Finished t .ok (busResult i { op := i, sel := (sideOf i).val } t)
      ∧ t.tx.toList = s.cfg.opcRead :: List.replicate 15 0xFF
      ∧ t.snap.toList = ((xs.drop 3).take 16).map (fun x => x.pins.miso) ∧ t.me.rxbuf = t.snap
      ∧ t.snapTime = ((xs.drop 19).headD default).now
      ∧ (t.beakR, t.beakG, t.beakB) = (s.beakR, s.beakG, s.beakB)
      ∧ t.ready = true ∧ t.owner = none ∧ t.initDone = s.initDone ∧ t.xfer = false ∧ t.csN = true
      ∧ t.cfg = s.cfg ∧ CtxKept s t

/-! ### NOP, INIT and XFER_RAW -/

/-- NOP finishes OK in its decode step and changes nothing else (R125). -/
def Obligations.NopCompletes : Prop := ∀ s : State, Standing s .decode → FinishesWith .nop s .ok 0

/-- INIT finishes OK in its decode step; the first sets INIT_DONE and READY, a later one changes nothing (R126, R192). -/
def Obligations.InitCompletes : Prop :=
  ∀ s : State, Standing s .decode → ∃ t, exec .init s = .next t ∧ Finished t .ok 0
    ∧ (s.initDone = false → t.initDone = true ∧ t.ready = true)
    ∧ (s.initDone = true → t.initDone = true ∧ t.ready = s.ready)
    ∧ t.owner = s.owner ∧ CtxKept s t ∧ t.me.rxbuf = s.me.rxbuf ∧ CacheKept s t ∧ TransportKept s t ∧ OutsideKept s t

/-- XFER_RAW's decode step: LEN above 16 is rejected with no poll; otherwise the frame is the first LEN bytes of TXBUF
and FILL in the rest (R96, R127). -/
def Obligations.RawFrameIsNormalised : Prop :=
  ∀ (len : Nat) (fill : Byte) (s : State), Standing s .decode →
    (16 < len → FinishesWith (.xferRaw len fill) s .rejected 0)
    ∧ (len ≤ 16 → ∃ t l, exec (.xferRaw len fill) s = .next t ∧ OnlyOwnOp s t ∧ t.me.phase = .poll
      ∧ t.me.lat = some l ∧ l.kind = .other ∧ l.raw = latchedFrame (.xferRaw len fill) l t
      ∧ ∀ j : Fin 16, l.raw[j] = if j.val < len then s.me.txbuf[j] else fill)

/-! ### Motion and LEDs -/

/-- R134: a MOVE or TURN whose tick count is 0 finishes NOXFER in its decode step with no poll; one whose count is not
0 goes on to poll, and SET_WHEELS, which sends zero ticks, always does. -/
def Obligations.ZeroTickGuard : Prop :=
  ∀ (dir : Bool) (spd : Int) (amt : Nat) (s : State), Standing s .decode →
    (ticksOf amt s.cfg.kTpc = 0 → FinishesWith (.move dir spd amt) s .noxfer 0)
    ∧ (ticksOf amt s.cfg.kTpd = 0 → FinishesWith (.turn dir spd amt) s .noxfer 0)
    ∧ (ticksOf amt s.cfg.kTpc ≠ 0 → ∃ t, exec (.move dir spd amt) s = .next t ∧ t.me.phase = .poll)
    ∧ (ticksOf amt s.cfg.kTpd ≠ 0 → ∃ t, exec (.turn dir spd amt) s = .next t ∧ t.me.phase = .poll)
    ∧ ∀ lspd rspd : Int, ∃ t l, exec (.setWheels lspd rspd) s = .next t ∧ t.me.phase = .poll ∧ t.me.lat = some l
      ∧ tickField (latchedFrame (.setWheels lspd rspd) l t) 2 = 0
      ∧ tickField (latchedFrame (.setWheels lspd rspd) l t) 6 = 0

/-- R135: that every MOVE or TURN past its decode step has a nonzero tick count is kept by every step, so the frame it
builds has no zero tick field; and one that computes zero ticks never reaches its polls. -/
def Obligations.NoZeroTickFrame : Prop :=
  TicksNonzero State.reset
    ∧ (∀ s t : State, TicksNonzero s → step s = .next t → TicksNonzero t)
    ∧ (∀ (s t : State) (l : Latch), TicksNonzero s → Standing s .xfer → s.me.lat = some l → isBounded l.op = true →
      s.xfer = false → exec l.op s = .next t → tickField t.tx 2 ≠ 0 ∧ tickField t.tx 6 ≠ 0)
    ∧ ∀ (i : Instr) (s t : State), isBounded i = true → decodeCheck i s.cfg = some .noxfer → Standing s .decode →
      exec i s = .next t → t.me.phase = .idle ∧ TransportKept s t

/-- R131: the velocity byte is the rounded, floored and saturated magnitude of the rule, with bit 7 set for a positive
percent. -/
def Obligations.ConvertSpeedFormula : Prop :=
  ∀ (cfg : Config) (p : Int), -100 ≤ p → p ≤ 100 → convertSpeed cfg p = velocityOf cfg p

/-- R132: the six laws of convertSpeed. -/
def Obligations.ConvertSpeedLaws : Prop :=
  ∀ (cfg : Config) (p q : Int), -100 ≤ p → p ≤ 100 → -100 ≤ q → q ≤ 100 →
    (p.natAbs ≤ q.natAbs → (convertSpeed cfg p &&& 0x7F).toNat ≤ (convertSpeed cfg q &&& 0x7F).toNat)
    ∧ ((convertSpeed cfg p).getLsbD 7 = true ↔ 0 < p)
    ∧ convertSpeed cfg 0 = 0x00
    ∧ convertSpeed cfg p &&& 0x7F = convertSpeed cfg (-p) &&& 0x7F
    ∧ (p ≠ 0 → (convertSpeed cfg p &&& 0x7F).toNat = 0
      ∨ min cfg.minMag.val 127 ≤ (convertSpeed cfg p &&& 0x7F).toNat)
    ∧ (cfg.minMag.val = 0 →
      ((convertSpeed cfg p &&& 0x7F).toNat : Int) = min (rnd ((p.natAbs : ℚ) * uq16 cfg.kSpd)) 127)
    ∧ (0 < p → convertSpeed cfg p &&& 0x7F = 0 → convertSpeed cfg p = 0x80)

/-- R133: the tick count is the rounded product, saturated to 24 bits. -/
def Obligations.TicksFormula : Prop :=
  ∀ (a : Nat) (k : Word), (ticks a k : Int) = ticksOf a k ∧ ticks a k < 2 ^ 24

/-- R136: every field of a command frame sits at its byte and determines its clamped value: the colour byte is strictly
increasing, the velocity byte gives back its sign and magnitude, and the tick field gives back t. SetMotor's fields are
at bytes 1 to 8, SetSingleLED's port at 1 and its colour at 2 to 4, SetAllLEDs' beak at 1 to 3 and its tail at 4 to 15. -/
def Obligations.FrameFieldsRecover : Prop :=
  (∀ c d : Percent, c < d → (colourByte c).toNat < (colourByte d).toNat)
    ∧ (∀ (cfg : Config) (p : Int), (convertSpeed cfg p).toNat / 128 = (if 0 < p then 1 else 0)
      ∧ (convertSpeed cfg p).toNat % 128 = speedMagnitude cfg p)
    ∧ (∀ (cfg : Config) (vl vr : Byte) (tl tr : BitVec 24), (motorFrame cfg vl tl vr tr)[0] = cfg.opcMotor
      ∧ (motorFrame cfg vl tl vr tr)[1] = vl ∧ tickField (motorFrame cfg vl tl vr tr) 2 = tl.toNat
      ∧ (motorFrame cfg vl tl vr tr)[5] = vr ∧ tickField (motorFrame cfg vl tl vr tr) 6 = tr.toNat)
    ∧ (∀ (cfg : Config) (p : Nat) (r g b : Percent), p ≤ 4 → (setSingleFrame cfg p r g b)[0] = cfg.opcSingle
      ∧ (setSingleFrame cfg p r g b)[1].toNat = p ∧ (setSingleFrame cfg p r g b)[2] = colourByte r
      ∧ (setSingleFrame cfg p r g b)[3] = colourByte g ∧ (setSingleFrame cfg p r g b)[4] = colourByte b)
    ∧ (∀ (cfg : Config) (u v w r g b : Percent) (j : Nat), j < 4 → (setAllFrame cfg u v w r g b)[0] = cfg.opcSetAll
      ∧ (setAllFrame cfg u v w r g b)[1] = colourByte u ∧ (setAllFrame cfg u v w r g b)[2] = colourByte v
      ∧ (setAllFrame cfg u v w r g b)[3] = colourByte w
      ∧ (setAllFrame cfg u v w r g b).toList[4 + 3 * j]? = some (colourByte r)
      ∧ (setAllFrame cfg u v w r g b).toList[5 + 3 * j]? = some (colourByte g)
      ∧ (setAllFrame cfg u v w r g b).toList[6 + 3 * j]? = some (colourByte b))
    ∧ (∀ (cfg : Config) (p : Nat) (r g b r' g' b' : Percent) (p' : Nat), p ≤ 4 → p' ≤ 4 →
      setSingleFrame cfg p r g b = setSingleFrame cfg p' r' g' b' → p = p' ∧ r = r' ∧ g = g' ∧ b = b')
    ∧ ∀ (cfg : Config) (u v w r g b u' v' w' r' g' b' : Percent),
      setAllFrame cfg u v w r g b = setAllFrame cfg u' v' w' r' g' b' →
      u = u' ∧ v = v' ∧ w = w' ∧ r = r' ∧ g = g' ∧ b = b'

/-! ### The sensor getters -/

/-- The staleness test, and what each cache op does with it: a stale snapshot sends it to its polls, a fresh one ends
it (R146, R147, R151). -/
def Obligations.StalenessDecidesTheRead : Prop :=
  (∀ (t m : Word) (s : State), stale t m s = true ↔ (m.toNat : Int) < ageAt t s)
    ∧ ∀ (i : Instr) (l : Latch) (s : State), i.opClass = .cache → Standing s .age → s.me.lat = some l →
      (∀ m, i = .refresh m → l.maxAge.toNat = m) →
      ((maxAgeOf i s.cfg : Int) < ageAt s.now s → ∃ t, exec i s = .next t ∧ OnlyOwnOp s t
        ∧ t.me = { s.me with phase := .poll, polls := 0, wait := 0 })
      ∧ (ageAt s.now s ≤ (maxAgeOf i s.cfg : Int) → ∃ t, exec i s = .next t ∧ OnlyOwnOp s t ∧ t.me.phase = .idle)

/-- REFRESH on a fresh snapshot finishes NOXFER with RESULT 0 and no transaction (R151). -/
def Obligations.RefreshOfFreshSnapshot : Prop :=
  ∀ (m : Nat) (l : Latch) (s : State), Standing s .age → s.me.lat = some l → l.maxAge.toNat = m →
    ageAt s.now s ≤ (m : Int) → FinishesWith (.refresh m) s .noxfer 0

/-- GET_DISTANCE's value is rnd(raw · distance_scale) of the big-endian distance bytes, and on a fresh snapshot it
finishes OK with it, saturated to 32 bits, and no transaction (R147, R152). -/
def Obligations.DistanceValue : Prop :=
  ∀ (s : State) (v : Int),
    v = rnd (((s.snap[2].toNat * 256 + s.snap[3].toNat : Nat) : ℚ) * uq16 s.cfg.kDist) →
    (∀ l, evalDistance l s = v) ∧ (FreshAge .getDistance s → FinishesWith .getDistance s .ok (saturated v))

/-- GET_LIGHT's value is the light byte of its side less the beak correction, clamped to 0..100 and then rounded
(R147, R153). -/
def Obligations.LightValue : Prop :=
  ∀ (sel : Nat) (s : State) (v : Int),
    v = rnd (min (max ((s.snap[4 + (sideOf (.getLight sel)).val].toNat : ℚ)
      - lightPoly s.cfg.lc[sideOf (.getLight sel)] s.beakR.val s.beakG.val s.beakB.val) 0) 100) →
    (∀ l : Latch, l.sel = (sideOf (.getLight sel)).val → evalLight l s = v) ∧ 0 ≤ v ∧ v ≤ 100
      ∧ (FreshAge (.getLight sel) s → FinishesWith (.getLight sel) s .ok v)

/-- GET_LINE's value is 100 less the whiteness percent of the low seven bits, plus LINE_OFFSET, clamped to 0..100
(R147, R154). -/
def Obligations.LineValue : Prop :=
  ∀ (sel : Nat) (s : State) (v : Int),
    v = min (max (100 - rnd (((s.snap[6 + (sideOf (.getLine sel)).val].toNat % 128 : Nat) : ℚ) * 100 / 127)
      + s.cfg.lineOffset) 0) 100 →
    (∀ l : Latch, l.sel = (sideOf (.getLine sel)).val → evalLine l s = v) ∧ 0 ≤ v ∧ v ≤ 100
      ∧ (FreshAge (.getLine sel) s → FinishesWith (.getLine sel) s .ok v)

/-- GET_BATTERY's value is rnd(raw · battery_scale + offset) (R147, R155). -/
def Obligations.BatteryValue : Prop :=
  ∀ (s : State) (v : Int), v = rnd ((s.snap[8].toNat : ℚ) * uq16 s.cfg.kBat + sq16 s.cfg.kBatOff) →
    (∀ l, evalBattery l s = v) ∧ (FreshAge .getBattery s → FinishesWith .getBattery s .ok (saturated v))

/-- GET_ENCODER's value is rnd(n / ticks_per_rotation · 10^ENC_DEC) of the signed 24-bit count of its side (R147, R156). -/
def Obligations.EncoderValue : Prop :=
  ∀ (sel : Nat) (s : State) (v : Int),
    v = rnd (((encoderBits s (sideOf (.getEncoder sel))).toInt : ℚ) / uq16 s.cfg.kTpr * 10 ^ s.cfg.encDec.val) →
    (∀ l : Latch, l.sel = (sideOf (.getEncoder sel)).val → evalEncoder l s = v)
      ∧ (FreshAge (.getEncoder sel) s → FinishesWith (.getEncoder sel) s .ok (saturated v))

/-- GET_POSFLAG's value is bit 7 of snapshot byte POS_FLAG_BYTE, which is byte 6 or 7 (R9, R147, R157). -/
def Obligations.PosflagValue : Prop :=
  ∀ (s : State) (v : Int), v = (if s.snap[s.cfg.posFlagByte].getLsbD 7 then 1 else 0) →
    (∀ l, evalPosflag l s = v) ∧ (s.cfg.posFlagByte.val = 6 ∨ s.cfg.posFlagByte.val = 7)
      ∧ (FreshAge .getPosflag s → FinishesWith .getPosflag s .ok v)

/-! ### Orientation -/

/-- GET_ACCEL and GET_MAGNET finish OK in their decode step with the component SEL names of the rotated reading, each
component rounded once (R89, R159, R160, R163, R164). -/
def Obligations.AxisReadings : Prop :=
  ∀ (sel : Nat) (s : State), Standing s .decode →
    FinishesWith (.getAccel sel) s .ok (component (accelOf s) sel)
      ∧ FinishesWith (.getMagnet sel) s .ok (component (magnetOf s) sel)

/-- R161: rotM with (C, S) is rotA with (C, −S). -/
def Obligations.MagnetRotationIsOpposite : Prop :=
  ∀ (c t : Int) (v : Int × Int × Int), rotM c t v = rotA c (-t) v

/-- R162: rotM undoes rotA up to E(v) in each component, and E(v) is at most 1 for the EP1 pair. -/
def Obligations.RotationRoundTrip : Prop :=
  (∀ (c t x y z : Int), (rotM c t (rotA c t (x, y, z))).1 = x
    ∧ |(rotM c t (rotA c t (x, y, z))).2.1 - y| ≤ roundTripBound c t y
    ∧ |(rotM c t (rotA c t (x, y, z))).2.2 - z| ≤ roundTripBound c t z)
    ∧ (12551 : Int) ^ 2 + 10531 ^ 2 = 268429562 ∧ (2 : Int) ^ 28 = 268435456
    ∧ ∀ v : BitVec 16, roundTripBound 12551 10531 v.toInt ≤ 1

/-- GET_COMPASS finishes OK in its decode step with a heading in 0..359: any one on a degenerate input, else one within
COMPASS_TOL of the exact heading (R165). The exact heading is the model's compassHeading (log 12; that it is R165's over
the reals is CompassHeadingIsExact), and that every heading so allowed is reached by some draw is log 13's reading. -/
def Obligations.CompassWithinTolerance : Prop :=
  ∀ s : State, Standing s .decode →
    (∃ v : Nat, FinishesWith .getCompass s .ok v ∧ v < 360
      ∧ ∀ h, compassHeading (accelOf s) (magnetOf s) = some h → circularDistance v h ≤ Config.compassTol)
    ∧ ∀ v : Nat, v < 360 →
      (∀ h, compassHeading (accelOf s) (magnetOf s) = some h → circularDistance v h ≤ Config.compassTol) →
      ∃ d, FinishesWith .getCompass { s with pins := { s.pins with compassDraw := d } } .ok v

/-- The model's heading is R165's exact heading over the reals: `none` exactly on its degenerate inputs, and otherwise
H rounded to the nearest degree, modulo 360 (R165, R166; the model computes it as log 12 says). -/
def Obligations.CompassHeadingIsExact : Prop :=
  ∀ g b : Int × Int × Int, (compassHeading g b = none ↔ Degenerate g b)
    ∧ ∀ h, compassHeading g b = some h → (h : Int) = ⌊realHeading g b + 1 / 2⌋ % 360

/-- R167: level, the roll and the pitch are 0 and the level field is the field itself; with north along +Y the exact
heading is 0. -/
def Obligations.LevelNorthReadsZero : Prop :=
  ∀ (z x y w : Int), z < 0 → roll (0, 0, z) = 0 ∧ pitch (0, 0, z) = 0
    ∧ fieldX (0, 0, z) (x, y, w) = x ∧ fieldY (0, 0, z) (x, y, w) = y
    ∧ (x = 0 → 0 < y → compassHeading (0, 0, z) (x, y, w) = some 0)

/-- GET_ORIENT finishes OK in its decode step with 1 or 0 as the pose SEL names holds of the rotated acceleration, or as
the shake bit, for SEL 6 and 7 (R89, R168). -/
def Obligations.OrientationPoses : Prop :=
  ∀ (sel : Nat) (s : State), Standing s .decode → ∃ v : Int, FinishesWith (.getOrient sel) s .ok v
    ∧ (v = 0 ∨ v = 1) ∧ (v = 1 ↔ Pose (accelOf s) s.pins.shake s.cfg.orientT.val sel)

/-! ### What only some steps write -/

/-- G.BEAK changes only in the commit step of a SET_SINGLE_LED for port 0, to its clamped colour, or by reset (R37, R139). -/
def Obligations.BeakHasOneWriter : Prop :=
  ∀ s t : State, step s = .next t → (t.beakR, t.beakG, t.beakB) ≠ (s.beakR, s.beakG, s.beakB) →
    ResetNext s ∨ ∃ k l p r g b, CtxSteps s k ∧ (s.ctx k).phase = .commit ∧ s.owner = some k
      ∧ (s.ctx k).lat = some l ∧ l.op = .setSingleLed p r g b ∧ l.port = 0
      ∧ (t.beakR, t.beakG, t.beakB) = (l.red, l.green, l.blue)

/-- SNAP and a context's RXBUF change only in a commit step, to the frame received; RXBUF only in its own context's; and
G.SNAP_TIME only in that of a sensor read, to `now`; or all by reset (R38, R39, R47, R118). -/
def Obligations.SnapshotWrittenByCommits : Prop :=
  ∀ s t : State, step s = .next t →
    (t.snap ≠ s.snap → ResetNext s ∨ ∃ k, CtxSteps s k ∧ (s.ctx k).phase = .commit ∧ s.owner = some k ∧ t.snap = s.rx)
    ∧ (∀ k, (t.ctx k).rxbuf ≠ (s.ctx k).rxbuf →
      ResetNext s ∨ (CtxSteps s k ∧ (s.ctx k).phase = .commit ∧ s.owner = some k ∧ (t.ctx k).rxbuf = s.rx))
    ∧ (t.snapTime ≠ s.snapTime → ResetNext s ∨ ∃ k l, CtxSteps s k ∧ (s.ctx k).phase = .commit ∧ s.owner = some k
      ∧ (s.ctx k).lat = some l ∧ l.kind = .sensorRead ∧ t.snapTime = (observed s).now)

/-- R196: no step that leaves a context busy changes its RESULT or RCODE, so a read before BUSY = 0 gives the old
values. -/
def Obligations.BusyKeepsResult : Prop :=
  (∀ (s t : State) (k : Nat), step s = .next t → (t.ctx k).busy = true →
    (t.ctx k).result = (s.ctx k).result ∧ (t.ctx k).rcode = (s.ctx k).rcode)
    ∧ ∀ (s t : State) (k : Nat), s.rstN = true → s.ctxs.length ≤ 16 → k < s.ctxs.length → step s = .next t →
      (HostReads s (ctxAddr k 0x08) → t.hRdata = (s.ctx k).result)
      ∧ (HostReads s (ctxAddr k 0x04) → t.hRdata.extractLsb' 4 3 = rcodeBits (s.ctx k).rcode)

/-- The frame of every step of every op: other contexts, the parameters, the environment, sclk, mosi and h_rdata are never
written; each shared register is written only in the phases and by the ops that its rule names (R33 to R39, R46, R47, R62). R109
clocks sclk and mosi inside a byte slot; that both are as before when the step of a byte slot ends is the model's reading
of R66 (log 6, unsafe for sclk), and that a step is one byte slot is log 4. That a step which finishes the op after its
decode step keeps LAT is the model's reading (log 16, unsafe for a claim about LAT after an op has finished). -/
def Obligations.OpStepFrame : Prop :=
  ∀ (i : Instr) (s t : State), exec i s = .next t → CtxKept s t ∧ OutsideKept s t
    ∧ (i ≠ .init → t.initDone = s.initDone)
    ∧ (i ≠ .init → s.me.phase ≠ .poll → s.me.phase ≠ .commit → t.ready = s.ready)
    ∧ (s.me.phase ≠ .poll → s.me.phase ≠ .commit → t.owner = s.owner)
    ∧ (s.me.phase ≠ .xfer → TransportKept s t)
    ∧ (s.me.phase ≠ .commit → CacheKept s t ∧ t.me.rxbuf = s.me.rxbuf)
    ∧ (isSingleLed i = false → (t.beakR, t.beakG, t.beakB) = (s.beakR, s.beakG, s.beakB))
    ∧ (s.me.phase ≠ .decode → t.me.lat = s.me.lat)

/-- R65: no step writes the parameters, and reset keeps them. -/
def Obligations.ParametersNeverChange : Prop := ∀ s t : State, step s = .next t → t.cfg = s.cfg
end

