-- ==== Sys2Proof/Laws/Compass.lean ====
section
/-! SUPPORT. What the sign-change count of GET_COMPASS computes (R165, log 12): for p = d·cos t with 0 ≤ t ≤ π,
quarterDegrees p d is t in half-degrees rounded, halves down. -/

namespace Sys2Proof.Laws
open Real Sys2Proof.Machine

/-- The odd multiples of π/2 below x. -/
noncomputable def rootsBelow (x : ℝ) : ℤ := ⌈x / π - 1 / 2⌉

theorem rootsBelow_zero : rootsBelow 0 = 0 := by
  rw [rootsBelow, Int.ceil_eq_iff]
  norm_num

/-- The remainder of x past its last root lies in (−π/2, π/2]. -/
theorem rootsBelow_rem (x : ℝ) : -(π / 2) < x - rootsBelow x * π ∧ x - rootsBelow x * π ≤ π / 2 := by
  have h1 := Int.le_ceil (x / π - 1 / 2)
  have h2 := Int.ceil_lt_add_one (x / π - 1 / 2)
  change x / π - 1 / 2 ≤ (rootsBelow x : ℝ) at h1
  change (rootsBelow x : ℝ) < x / π - 1 / 2 + 1 at h2
  have hx : x = x / π * π := by field_simp
  constructor <;> nlinarith [pi_pos]

/-- Past its last root the cosine is its nonnegative part, with the sign the number of roots below gives. -/
theorem cos_eq_rem (x : ℝ) : cos x = (-1) ^ (rootsBelow x) * cos (x - rootsBelow x * π) := by
  have := cos_sub_int_mul_pi x (rootsBelow x)
  rw [this, ← mul_assoc, ← zpow_add₀ (by norm_num)]
  rw [Even.neg_one_zpow ⟨_, rfl⟩, one_mul]

theorem cos_rem_nonneg (x : ℝ) : 0 ≤ cos (x - rootsBelow x * π) :=
  cos_nonneg_of_neg_pi_div_two_le_of_le (rootsBelow_rem x).1.le (rootsBelow_rem x).2

theorem even_of_cos_pos {x : ℝ} (h : 0 < cos x) : Even (rootsBelow x) := by
  rcases Int.even_or_odd (rootsBelow x) with he | ho
  · exact he
  · rw [cos_eq_rem, ho.neg_one_zpow] at h
    linarith [cos_rem_nonneg x]

theorem odd_of_cos_neg {x : ℝ} (h : cos x < 0) : Odd (rootsBelow x) := by
  rcases Int.even_or_odd (rootsBelow x) with he | ho
  · rw [cos_eq_rem, he.neg_one_zpow] at h
    linarith [cos_rem_nonneg x]
  · exact ho

/-- A step of at most π passes at most one root. -/
theorem rootsBelow_step {x t : ℝ} (h0 : 0 ≤ t) (h1 : t ≤ π) :
    rootsBelow x ≤ rootsBelow (x + t) ∧ rootsBelow (x + t) ≤ rootsBelow x + 1 := by
  constructor
  · exact Int.ceil_le_ceil (by have := div_nonneg h0 pi_pos.le; rw [add_div]; linarith)
  · have : rootsBelow x + 1 = ⌈x / π - 1 / 2 + 1⌉ := (Int.ceil_add_one _).symm
    rw [this]
    exact Int.ceil_le_ceil (by have := (div_le_one pi_pos).mpr h1; rw [add_div]; linarith)

/-- A root reached exactly is not yet below. -/
theorem rootsBelow_of_cos_zero {j : ℕ} {t : ℝ} (h0 : 0 ≤ t) (h1 : t ≤ π) (hc : cos ((j + 1 : ℕ) * t) = 0) :
    rootsBelow ((j + 1 : ℕ) * t) = rootsBelow (j * t) := by
  have hsum : ((j + 1 : ℕ) * t : ℝ) = j * t + t := by push_cast; ring
  have hlt : t < π := by
    rcases h1.lt_or_eq with h | h
    · exact h
    · rw [h, Real.cos_nat_mul_pi] at hc
      exact absurd hc (by positivity)
  have hs := rootsBelow_step (x := j * t) h0 h1
  rw [← hsum] at hs
  have hz : cos ((j + 1 : ℕ) * t - rootsBelow ((j + 1 : ℕ) * t) * π) = 0 := by
    have := cos_eq_rem ((j + 1 : ℕ) * t)
    rw [hc] at this
    rcases mul_eq_zero.mp this.symm with h | h
    · exact absurd h (zpow_ne_zero _ (by norm_num))
    · exact h
  have hr := rootsBelow_rem ((j + 1 : ℕ) * t)
  have hend : (j + 1 : ℕ) * t - rootsBelow ((j + 1 : ℕ) * t) * π = π / 2 := by
    rcases hr.2.lt_or_eq with h | h
    · exact absurd hz (cos_pos_of_mem_Ioo ⟨hr.1, h⟩).ne'
    · exact h
  have hq := (rootsBelow_rem (j * t)).2
  by_contra hne
  have heq : rootsBelow ((j + 1 : ℕ) * t) = rootsBelow (j * t) + 1 := by omega
  rw [heq] at hend
  push_cast at hend hq
  nlinarith [pi_pos]

/-- The sign changes along d^j·cos (j·t), …, d^(j+m)·cos ((j+m)·t) count the roots between. -/
theorem chebyshevChanges_eq {p d : ℤ} {t : ℝ} (hd : 0 < d) (hp : (p : ℝ) = d * cos t) (h0 : 0 ≤ t) (h1 : t ≤ π)
    (m j : ℕ) (u v : ℤ) (neg : Bool) (hu : (u : ℝ) = d ^ (j + 1) * cos ((j + 1 : ℕ) * t))
    (hv : (v : ℝ) = d ^ j * cos (j * t)) (hn : neg = true ↔ Odd (rootsBelow (j * t))) :
    (chebyshevChanges p d m u v neg : ℤ) + rootsBelow (j * t) = rootsBelow ((j + m : ℕ) * t) := by
  induction m generalizing j u v neg with
  | zero => simp [chebyshevChanges]
  | succ m ih =>
    have hsum : ((j + 1 : ℕ) * t : ℝ) = j * t + t := by push_cast; ring
    have hs := rootsBelow_step (x := j * t) h0 h1
    rw [← hsum] at hs
    have hdp : (0 : ℝ) < (d : ℝ) ^ (j + 1) := by positivity
    have hnext : ((2 * p * u - d * d * v : ℤ) : ℝ) = d ^ (j + 1 + 1) * cos ((j + 1 + 1 : ℕ) * t) := by
      have hc : cos ((j + 1 + 1 : ℕ) * t) = 2 * cos t * cos ((j + 1 : ℕ) * t) - cos (j * t) := by
        have ha : ((j + 1 + 1 : ℕ) * t : ℝ) = (j + 1 : ℕ) * t + t := by push_cast; ring
        have hb : (j * t : ℝ) = (j + 1 : ℕ) * t - t := by push_cast; ring
        rw [ha, hb, cos_add, cos_sub]
        ring
      push_cast
      rw [hu, hv, hp]
      push_cast at hc
      rw [hc]
      push_cast
      ring
    have hidx : j + (m + 1) = (j + 1) + m := by omega
    rw [chebyshevChanges, hidx]
    split
    case isTrue hpos =>
      have hc : 0 < cos ((j + 1 : ℕ) * t) := by
        have : (0 : ℝ) < d ^ (j + 1) * cos ((j + 1 : ℕ) * t) := by rw [← hu]; exact_mod_cast hpos
        exact (pos_iff_pos_of_mul_pos this).mp hdp
      have he := even_of_cos_pos hc
      have := ih (j + 1) _ u false hnext hu
        ⟨fun h => Bool.noConfusion h, fun h => absurd he (Int.not_even_iff_odd.mpr h)⟩
      have hne : neg = true ↔ rootsBelow ((j + 1 : ℕ) * t) = rootsBelow (j * t) + 1 := by
        rw [hn]; rw [Int.even_iff] at he; rw [Int.odd_iff]; omega
      push_cast at this hne hs ⊢
      cases neg <;> simp at hne ⊢ <;> omega
    case isFalse hpos =>
      split
      case isTrue hneg =>
        have hc : cos ((j + 1 : ℕ) * t) < 0 := by
          have : (d : ℝ) ^ (j + 1) * cos ((j + 1 : ℕ) * t) < 0 := by rw [← hu]; exact_mod_cast hneg
          exact (pos_iff_neg_of_mul_neg this).mp hdp
        have ho := odd_of_cos_neg hc
        have := ih (j + 1) _ u true hnext hu ⟨fun _ => ho, fun _ => rfl⟩
        have hne : neg = true ↔ rootsBelow ((j + 1 : ℕ) * t) = rootsBelow (j * t) := by
          rw [hn]; rw [Int.odd_iff] at ho ⊢; omega
        push_cast at this hne hs ⊢
        cases neg <;> simp at hne ⊢ <;> omega
      case isFalse hneg =>
        have hc : cos ((j + 1 : ℕ) * t) = 0 := by
          have hz : u = 0 := by omega
          rw [hz] at hu
          push_cast at hu
          rcases mul_eq_zero.mp hu.symm with h | h
          · exact absurd h hdp.ne'
          · push_cast; exact h
        have hr := rootsBelow_of_cos_zero h0 h1 hc
        have := ih (j + 1) _ u neg hnext hu (by rw [hr]; exact hn)
        rw [hr] at this
        exact this

/-- quarterDegrees counts the odd multiples of π/2 below 90·t. -/
theorem quarterDegrees_eq {p d : ℤ} {t : ℝ} (hd : 0 < d) (hp : (p : ℝ) = d * cos t) (h0 : 0 ≤ t) (h1 : t ≤ π) :
    (quarterDegrees p d : ℤ) = ⌈t * 90 / π - 1 / 2⌉ := by
  have := chebyshevChanges_eq hd hp h0 h1 90 0 p 1 false (by push_cast; simpa using hp) (by simp)
    (by simp [rootsBelow_zero])
  simp only [Nat.cast_zero, zero_mul, rootsBelow_zero, add_zero] at this
  rw [quarterDegrees, this, rootsBelow]
  congr 2
  push_cast; ring
end Sys2Proof.Laws
end

