-- ==== Sys2Proof/Laws/State.lean ====
section
/-! SUPPORT. What each update of State leaves: one lemma for each field and update, true by rfl, and the reads of a
context after a write of one. -/

namespace Sys2Proof.Machine

/-! ### Writing a context: every field but ctxs -/

@[simp] theorem updCtx_cfg (s : State) (k : Nat) (g : Ctx → Ctx) : (s.updCtx k g).cfg = s.cfg := rfl
@[simp] theorem updCtx_ready (s : State) (k : Nat) (g : Ctx → Ctx) : (s.updCtx k g).ready = s.ready := rfl
@[simp] theorem updCtx_initDone (s : State) (k : Nat) (g : Ctx → Ctx) : (s.updCtx k g).initDone = s.initDone := rfl
@[simp] theorem updCtx_owner (s : State) (k : Nat) (g : Ctx → Ctx) : (s.updCtx k g).owner = s.owner := rfl
@[simp] theorem updCtx_xfer (s : State) (k : Nat) (g : Ctx → Ctx) : (s.updCtx k g).xfer = s.xfer := rfl
@[simp] theorem updCtx_beakR (s : State) (k : Nat) (g : Ctx → Ctx) : (s.updCtx k g).beakR = s.beakR := rfl
@[simp] theorem updCtx_beakG (s : State) (k : Nat) (g : Ctx → Ctx) : (s.updCtx k g).beakG = s.beakG := rfl
@[simp] theorem updCtx_beakB (s : State) (k : Nat) (g : Ctx → Ctx) : (s.updCtx k g).beakB = s.beakB := rfl
@[simp] theorem updCtx_snap (s : State) (k : Nat) (g : Ctx → Ctx) : (s.updCtx k g).snap = s.snap := rfl
@[simp] theorem updCtx_snapTime (s : State) (k : Nat) (g : Ctx → Ctx) : (s.updCtx k g).snapTime = s.snapTime := rfl
@[simp] theorem updCtx_csN (s : State) (k : Nat) (g : Ctx → Ctx) : (s.updCtx k g).csN = s.csN := rfl
@[simp] theorem updCtx_sclk (s : State) (k : Nat) (g : Ctx → Ctx) : (s.updCtx k g).sclk = s.sclk := rfl
@[simp] theorem updCtx_mosi (s : State) (k : Nat) (g : Ctx → Ctx) : (s.updCtx k g).mosi = s.mosi := rfl
@[simp] theorem updCtx_hRdata (s : State) (k : Nat) (g : Ctx → Ctx) : (s.updCtx k g).hRdata = s.hRdata := rfl
@[simp] theorem updCtx_rstN (s : State) (k : Nat) (g : Ctx → Ctx) : (s.updCtx k g).rstN = s.rstN := rfl
@[simp] theorem updCtx_now (s : State) (k : Nat) (g : Ctx → Ctx) : (s.updCtx k g).now = s.now := rfl
@[simp] theorem updCtx_pins (s : State) (k : Nat) (g : Ctx → Ctx) : (s.updCtx k g).pins = s.pins := rfl
@[simp] theorem updCtx_tx (s : State) (k : Nat) (g : Ctx → Ctx) : (s.updCtx k g).tx = s.tx := rfl
@[simp] theorem updCtx_rx (s : State) (k : Nat) (g : Ctx → Ctx) : (s.updCtx k g).rx = s.rx := rfl
@[simp] theorem updCtx_slot (s : State) (k : Nat) (g : Ctx → Ctx) : (s.updCtx k g).slot = s.slot := rfl
@[simp] theorem updCtx_slotOut (s : State) (k : Nat) (g : Ctx → Ctx) : (s.updCtx k g).slotOut = s.slotOut := rfl
@[simp] theorem updCtx_cur (s : State) (k : Nat) (g : Ctx → Ctx) : (s.updCtx k g).cur = s.cur := rfl
@[simp] theorem updCtx_script (s : State) (k : Nat) (g : Ctx → Ctx) : (s.updCtx k g).script = s.script := rfl
@[simp] theorem updCtx_draws (s : State) (k : Nat) (g : Ctx → Ctx) : (s.updCtx k g).draws = s.draws := rfl

@[simp] theorem updMe_cfg (s : State) (g : Ctx → Ctx) : (s.updMe g).cfg = s.cfg := rfl
@[simp] theorem updMe_ready (s : State) (g : Ctx → Ctx) : (s.updMe g).ready = s.ready := rfl
@[simp] theorem updMe_initDone (s : State) (g : Ctx → Ctx) : (s.updMe g).initDone = s.initDone := rfl
@[simp] theorem updMe_owner (s : State) (g : Ctx → Ctx) : (s.updMe g).owner = s.owner := rfl
@[simp] theorem updMe_xfer (s : State) (g : Ctx → Ctx) : (s.updMe g).xfer = s.xfer := rfl
@[simp] theorem updMe_beakR (s : State) (g : Ctx → Ctx) : (s.updMe g).beakR = s.beakR := rfl
@[simp] theorem updMe_beakG (s : State) (g : Ctx → Ctx) : (s.updMe g).beakG = s.beakG := rfl
@[simp] theorem updMe_beakB (s : State) (g : Ctx → Ctx) : (s.updMe g).beakB = s.beakB := rfl
@[simp] theorem updMe_snap (s : State) (g : Ctx → Ctx) : (s.updMe g).snap = s.snap := rfl
@[simp] theorem updMe_snapTime (s : State) (g : Ctx → Ctx) : (s.updMe g).snapTime = s.snapTime := rfl
@[simp] theorem updMe_csN (s : State) (g : Ctx → Ctx) : (s.updMe g).csN = s.csN := rfl
@[simp] theorem updMe_sclk (s : State) (g : Ctx → Ctx) : (s.updMe g).sclk = s.sclk := rfl
@[simp] theorem updMe_mosi (s : State) (g : Ctx → Ctx) : (s.updMe g).mosi = s.mosi := rfl
@[simp] theorem updMe_hRdata (s : State) (g : Ctx → Ctx) : (s.updMe g).hRdata = s.hRdata := rfl
@[simp] theorem updMe_rstN (s : State) (g : Ctx → Ctx) : (s.updMe g).rstN = s.rstN := rfl
@[simp] theorem updMe_now (s : State) (g : Ctx → Ctx) : (s.updMe g).now = s.now := rfl
@[simp] theorem updMe_pins (s : State) (g : Ctx → Ctx) : (s.updMe g).pins = s.pins := rfl
@[simp] theorem updMe_tx (s : State) (g : Ctx → Ctx) : (s.updMe g).tx = s.tx := rfl
@[simp] theorem updMe_rx (s : State) (g : Ctx → Ctx) : (s.updMe g).rx = s.rx := rfl
@[simp] theorem updMe_slot (s : State) (g : Ctx → Ctx) : (s.updMe g).slot = s.slot := rfl
@[simp] theorem updMe_slotOut (s : State) (g : Ctx → Ctx) : (s.updMe g).slotOut = s.slotOut := rfl
@[simp] theorem updMe_cur (s : State) (g : Ctx → Ctx) : (s.updMe g).cur = s.cur := rfl
@[simp] theorem updMe_script (s : State) (g : Ctx → Ctx) : (s.updMe g).script = s.script := rfl
@[simp] theorem updMe_draws (s : State) (g : Ctx → Ctx) : (s.updMe g).draws = s.draws := rfl

/-! ### Reading a context -/

@[simp] theorem length_updCtx (s : State) (k : Nat) (g : Ctx → Ctx) :
    (s.updCtx k g).ctxs.length = s.ctxs.length := by
  simp [State.updCtx]

@[simp] theorem length_updMe (s : State) (g : Ctx → Ctx) : (s.updMe g).ctxs.length = s.ctxs.length :=
  length_updCtx s s.cur g

theorem ctx_updCtx_self {s : State} {k : Nat} (g : Ctx → Ctx) (h : k < s.ctxs.length) :
    (s.updCtx k g).ctx k = g (s.ctx k) := by
  simp [State.ctx, State.updCtx, List.getElem?_eq_getElem h]

theorem ctx_updCtx_ne {s : State} {j k : Nat} (g : Ctx → Ctx) (h : j ≠ k) :
    (s.updCtx k g).ctx j = s.ctx j := by
  simp [State.ctx, State.updCtx, List.getElem?_modify_ne, Ne.symm h]

theorem me_updMe {s : State} (g : Ctx → Ctx) (h : s.cur < s.ctxs.length) : (s.updMe g).me = g s.me :=
  ctx_updCtx_self g h

theorem ctx_updMe_ne {s : State} {j : Nat} (g : Ctx → Ctx) (h : j ≠ s.cur) : (s.updMe g).ctx j = s.ctx j :=
  ctx_updCtx_ne g h

theorem ctx_beyond {s : State} {k : Nat} (h : s.ctxs.length ≤ k) : s.ctx k = Ctx.reset := by
  simp [State.ctx, List.getElem?_eq_none h]

theorem ctx_mem {s : State} {k : Nat} (h : k < s.ctxs.length) : s.ctx k ∈ s.ctxs := by
  simp [State.ctx, List.getElem?_eq_getElem h]

theorem ctx_of_getElem? {s : State} {k : Nat} {c : Ctx} (h : s.ctxs[k]? = some c) :
    k < s.ctxs.length ∧ s.ctx k = c := by
  obtain ⟨hk, rfl⟩ := List.getElem?_eq_some_iff.mp h
  exact ⟨hk, by simp [State.ctx, List.getElem?_eq_getElem hk]⟩

theorem mem_updCtx {s : State} {k : Nat} {g : Ctx → Ctx} {c : Ctx} (h : c ∈ (s.updCtx k g).ctxs) :
    c ∈ s.ctxs ∨ (k < s.ctxs.length ∧ c = g (s.ctx k)) := by
  obtain ⟨j, hj, rfl⟩ := List.mem_iff_getElem.mp h
  have hj' : j < s.ctxs.length := by simpa using hj
  by_cases hjk : k = j
  · subst hjk
    exact .inr ⟨hj', by simp [State.updCtx, State.ctx, List.getElem?_eq_getElem hj']⟩
  · exact .inl (by simp [State.updCtx, hjk])

/-! ### The shared operations: every field but the ones each names -/

@[simp] theorem finish_cfg (code : RCode) (r : Int) (s : State) : (finish code r s).cfg = s.cfg := rfl
@[simp] theorem finish_ready (code : RCode) (r : Int) (s : State) : (finish code r s).ready = s.ready := rfl
@[simp] theorem finish_initDone (code : RCode) (r : Int) (s : State) : (finish code r s).initDone = s.initDone := rfl
@[simp] theorem finish_owner (code : RCode) (r : Int) (s : State) : (finish code r s).owner = s.owner := rfl
@[simp] theorem finish_xfer (code : RCode) (r : Int) (s : State) : (finish code r s).xfer = s.xfer := rfl
@[simp] theorem finish_beakR (code : RCode) (r : Int) (s : State) : (finish code r s).beakR = s.beakR := rfl
@[simp] theorem finish_beakG (code : RCode) (r : Int) (s : State) : (finish code r s).beakG = s.beakG := rfl
@[simp] theorem finish_beakB (code : RCode) (r : Int) (s : State) : (finish code r s).beakB = s.beakB := rfl
@[simp] theorem finish_snap (code : RCode) (r : Int) (s : State) : (finish code r s).snap = s.snap := rfl
@[simp] theorem finish_snapTime (code : RCode) (r : Int) (s : State) : (finish code r s).snapTime = s.snapTime := rfl
@[simp] theorem finish_csN (code : RCode) (r : Int) (s : State) : (finish code r s).csN = s.csN := rfl
@[simp] theorem finish_sclk (code : RCode) (r : Int) (s : State) : (finish code r s).sclk = s.sclk := rfl
@[simp] theorem finish_mosi (code : RCode) (r : Int) (s : State) : (finish code r s).mosi = s.mosi := rfl
@[simp] theorem finish_hRdata (code : RCode) (r : Int) (s : State) : (finish code r s).hRdata = s.hRdata := rfl
@[simp] theorem finish_rstN (code : RCode) (r : Int) (s : State) : (finish code r s).rstN = s.rstN := rfl
@[simp] theorem finish_now (code : RCode) (r : Int) (s : State) : (finish code r s).now = s.now := rfl
@[simp] theorem finish_pins (code : RCode) (r : Int) (s : State) : (finish code r s).pins = s.pins := rfl
@[simp] theorem finish_tx (code : RCode) (r : Int) (s : State) : (finish code r s).tx = s.tx := rfl
@[simp] theorem finish_rx (code : RCode) (r : Int) (s : State) : (finish code r s).rx = s.rx := rfl
@[simp] theorem finish_slot (code : RCode) (r : Int) (s : State) : (finish code r s).slot = s.slot := rfl
@[simp] theorem finish_slotOut (code : RCode) (r : Int) (s : State) : (finish code r s).slotOut = s.slotOut := rfl
@[simp] theorem finish_cur (code : RCode) (r : Int) (s : State) : (finish code r s).cur = s.cur := rfl
@[simp] theorem finish_script (code : RCode) (r : Int) (s : State) : (finish code r s).script = s.script := rfl
@[simp] theorem finish_draws (code : RCode) (r : Int) (s : State) : (finish code r s).draws = s.draws := rfl

@[simp] theorem latch_cfg (l : Latch) (s : State) : (latch l s).cfg = s.cfg := rfl
@[simp] theorem latch_ready (l : Latch) (s : State) : (latch l s).ready = s.ready := rfl
@[simp] theorem latch_initDone (l : Latch) (s : State) : (latch l s).initDone = s.initDone := rfl
@[simp] theorem latch_owner (l : Latch) (s : State) : (latch l s).owner = s.owner := rfl
@[simp] theorem latch_xfer (l : Latch) (s : State) : (latch l s).xfer = s.xfer := rfl
@[simp] theorem latch_beakR (l : Latch) (s : State) : (latch l s).beakR = s.beakR := rfl
@[simp] theorem latch_beakG (l : Latch) (s : State) : (latch l s).beakG = s.beakG := rfl
@[simp] theorem latch_beakB (l : Latch) (s : State) : (latch l s).beakB = s.beakB := rfl
@[simp] theorem latch_snap (l : Latch) (s : State) : (latch l s).snap = s.snap := rfl
@[simp] theorem latch_snapTime (l : Latch) (s : State) : (latch l s).snapTime = s.snapTime := rfl
@[simp] theorem latch_csN (l : Latch) (s : State) : (latch l s).csN = s.csN := rfl
@[simp] theorem latch_sclk (l : Latch) (s : State) : (latch l s).sclk = s.sclk := rfl
@[simp] theorem latch_mosi (l : Latch) (s : State) : (latch l s).mosi = s.mosi := rfl
@[simp] theorem latch_hRdata (l : Latch) (s : State) : (latch l s).hRdata = s.hRdata := rfl
@[simp] theorem latch_rstN (l : Latch) (s : State) : (latch l s).rstN = s.rstN := rfl
@[simp] theorem latch_now (l : Latch) (s : State) : (latch l s).now = s.now := rfl
@[simp] theorem latch_pins (l : Latch) (s : State) : (latch l s).pins = s.pins := rfl
@[simp] theorem latch_tx (l : Latch) (s : State) : (latch l s).tx = s.tx := rfl
@[simp] theorem latch_rx (l : Latch) (s : State) : (latch l s).rx = s.rx := rfl
@[simp] theorem latch_slot (l : Latch) (s : State) : (latch l s).slot = s.slot := rfl
@[simp] theorem latch_slotOut (l : Latch) (s : State) : (latch l s).slotOut = s.slotOut := rfl
@[simp] theorem latch_cur (l : Latch) (s : State) : (latch l s).cur = s.cur := rfl
@[simp] theorem latch_script (l : Latch) (s : State) : (latch l s).script = s.script := rfl
@[simp] theorem latch_draws (l : Latch) (s : State) : (latch l s).draws = s.draws := rfl

@[simp] theorem goPoll_cfg (s : State) : (goPoll s).cfg = s.cfg := rfl
@[simp] theorem goPoll_ready (s : State) : (goPoll s).ready = s.ready := rfl
@[simp] theorem goPoll_initDone (s : State) : (goPoll s).initDone = s.initDone := rfl
@[simp] theorem goPoll_owner (s : State) : (goPoll s).owner = s.owner := rfl
@[simp] theorem goPoll_xfer (s : State) : (goPoll s).xfer = s.xfer := rfl
@[simp] theorem goPoll_beakR (s : State) : (goPoll s).beakR = s.beakR := rfl
@[simp] theorem goPoll_beakG (s : State) : (goPoll s).beakG = s.beakG := rfl
@[simp] theorem goPoll_beakB (s : State) : (goPoll s).beakB = s.beakB := rfl
@[simp] theorem goPoll_snap (s : State) : (goPoll s).snap = s.snap := rfl
@[simp] theorem goPoll_snapTime (s : State) : (goPoll s).snapTime = s.snapTime := rfl
@[simp] theorem goPoll_csN (s : State) : (goPoll s).csN = s.csN := rfl
@[simp] theorem goPoll_sclk (s : State) : (goPoll s).sclk = s.sclk := rfl
@[simp] theorem goPoll_mosi (s : State) : (goPoll s).mosi = s.mosi := rfl
@[simp] theorem goPoll_hRdata (s : State) : (goPoll s).hRdata = s.hRdata := rfl
@[simp] theorem goPoll_rstN (s : State) : (goPoll s).rstN = s.rstN := rfl
@[simp] theorem goPoll_now (s : State) : (goPoll s).now = s.now := rfl
@[simp] theorem goPoll_pins (s : State) : (goPoll s).pins = s.pins := rfl
@[simp] theorem goPoll_tx (s : State) : (goPoll s).tx = s.tx := rfl
@[simp] theorem goPoll_rx (s : State) : (goPoll s).rx = s.rx := rfl
@[simp] theorem goPoll_slot (s : State) : (goPoll s).slot = s.slot := rfl
@[simp] theorem goPoll_slotOut (s : State) : (goPoll s).slotOut = s.slotOut := rfl
@[simp] theorem goPoll_cur (s : State) : (goPoll s).cur = s.cur := rfl
@[simp] theorem goPoll_script (s : State) : (goPoll s).script = s.script := rfl
@[simp] theorem goPoll_draws (s : State) : (goPoll s).draws = s.draws := rfl

@[simp] theorem goAge_cfg (s : State) : (goAge s).cfg = s.cfg := rfl
@[simp] theorem goAge_ready (s : State) : (goAge s).ready = s.ready := rfl
@[simp] theorem goAge_initDone (s : State) : (goAge s).initDone = s.initDone := rfl
@[simp] theorem goAge_owner (s : State) : (goAge s).owner = s.owner := rfl
@[simp] theorem goAge_xfer (s : State) : (goAge s).xfer = s.xfer := rfl
@[simp] theorem goAge_beakR (s : State) : (goAge s).beakR = s.beakR := rfl
@[simp] theorem goAge_beakG (s : State) : (goAge s).beakG = s.beakG := rfl
@[simp] theorem goAge_beakB (s : State) : (goAge s).beakB = s.beakB := rfl
@[simp] theorem goAge_snap (s : State) : (goAge s).snap = s.snap := rfl
@[simp] theorem goAge_snapTime (s : State) : (goAge s).snapTime = s.snapTime := rfl
@[simp] theorem goAge_csN (s : State) : (goAge s).csN = s.csN := rfl
@[simp] theorem goAge_sclk (s : State) : (goAge s).sclk = s.sclk := rfl
@[simp] theorem goAge_mosi (s : State) : (goAge s).mosi = s.mosi := rfl
@[simp] theorem goAge_hRdata (s : State) : (goAge s).hRdata = s.hRdata := rfl
@[simp] theorem goAge_rstN (s : State) : (goAge s).rstN = s.rstN := rfl
@[simp] theorem goAge_now (s : State) : (goAge s).now = s.now := rfl
@[simp] theorem goAge_pins (s : State) : (goAge s).pins = s.pins := rfl
@[simp] theorem goAge_tx (s : State) : (goAge s).tx = s.tx := rfl
@[simp] theorem goAge_rx (s : State) : (goAge s).rx = s.rx := rfl
@[simp] theorem goAge_slot (s : State) : (goAge s).slot = s.slot := rfl
@[simp] theorem goAge_slotOut (s : State) : (goAge s).slotOut = s.slotOut := rfl
@[simp] theorem goAge_cur (s : State) : (goAge s).cur = s.cur := rfl
@[simp] theorem goAge_script (s : State) : (goAge s).script = s.script := rfl
@[simp] theorem goAge_draws (s : State) : (goAge s).draws = s.draws := rfl

@[simp] theorem claim_cfg (s : State) : (claim s).cfg = s.cfg := rfl
@[simp] theorem claim_initDone (s : State) : (claim s).initDone = s.initDone := rfl
@[simp] theorem claim_xfer (s : State) : (claim s).xfer = s.xfer := rfl
@[simp] theorem claim_beakR (s : State) : (claim s).beakR = s.beakR := rfl
@[simp] theorem claim_beakG (s : State) : (claim s).beakG = s.beakG := rfl
@[simp] theorem claim_beakB (s : State) : (claim s).beakB = s.beakB := rfl
@[simp] theorem claim_snap (s : State) : (claim s).snap = s.snap := rfl
@[simp] theorem claim_snapTime (s : State) : (claim s).snapTime = s.snapTime := rfl
@[simp] theorem claim_csN (s : State) : (claim s).csN = s.csN := rfl
@[simp] theorem claim_sclk (s : State) : (claim s).sclk = s.sclk := rfl
@[simp] theorem claim_mosi (s : State) : (claim s).mosi = s.mosi := rfl
@[simp] theorem claim_hRdata (s : State) : (claim s).hRdata = s.hRdata := rfl
@[simp] theorem claim_rstN (s : State) : (claim s).rstN = s.rstN := rfl
@[simp] theorem claim_now (s : State) : (claim s).now = s.now := rfl
@[simp] theorem claim_pins (s : State) : (claim s).pins = s.pins := rfl
@[simp] theorem claim_tx (s : State) : (claim s).tx = s.tx := rfl
@[simp] theorem claim_rx (s : State) : (claim s).rx = s.rx := rfl
@[simp] theorem claim_slot (s : State) : (claim s).slot = s.slot := rfl
@[simp] theorem claim_slotOut (s : State) : (claim s).slotOut = s.slotOut := rfl
@[simp] theorem claim_cur (s : State) : (claim s).cur = s.cur := rfl
@[simp] theorem claim_script (s : State) : (claim s).script = s.script := rfl
@[simp] theorem claim_draws (s : State) : (claim s).draws = s.draws := rfl

@[simp] theorem release_cfg (s : State) : (release s).cfg = s.cfg := rfl
@[simp] theorem release_initDone (s : State) : (release s).initDone = s.initDone := rfl
@[simp] theorem release_xfer (s : State) : (release s).xfer = s.xfer := rfl
@[simp] theorem release_beakR (s : State) : (release s).beakR = s.beakR := rfl
@[simp] theorem release_beakG (s : State) : (release s).beakG = s.beakG := rfl
@[simp] theorem release_beakB (s : State) : (release s).beakB = s.beakB := rfl
@[simp] theorem release_snap (s : State) : (release s).snap = s.snap := rfl
@[simp] theorem release_snapTime (s : State) : (release s).snapTime = s.snapTime := rfl
@[simp] theorem release_csN (s : State) : (release s).csN = s.csN := rfl
@[simp] theorem release_sclk (s : State) : (release s).sclk = s.sclk := rfl
@[simp] theorem release_mosi (s : State) : (release s).mosi = s.mosi := rfl
@[simp] theorem release_hRdata (s : State) : (release s).hRdata = s.hRdata := rfl
@[simp] theorem release_rstN (s : State) : (release s).rstN = s.rstN := rfl
@[simp] theorem release_now (s : State) : (release s).now = s.now := rfl
@[simp] theorem release_pins (s : State) : (release s).pins = s.pins := rfl
@[simp] theorem release_tx (s : State) : (release s).tx = s.tx := rfl
@[simp] theorem release_rx (s : State) : (release s).rx = s.rx := rfl
@[simp] theorem release_slot (s : State) : (release s).slot = s.slot := rfl
@[simp] theorem release_slotOut (s : State) : (release s).slotOut = s.slotOut := rfl
@[simp] theorem release_cur (s : State) : (release s).cur = s.cur := rfl
@[simp] theorem release_script (s : State) : (release s).script = s.script := rfl
@[simp] theorem release_draws (s : State) : (release s).draws = s.draws := rfl

@[simp] theorem beginFrame_cfg (f : Frame) (s : State) : (beginFrame f s).cfg = s.cfg := rfl
@[simp] theorem beginFrame_ready (f : Frame) (s : State) : (beginFrame f s).ready = s.ready := rfl
@[simp] theorem beginFrame_initDone (f : Frame) (s : State) : (beginFrame f s).initDone = s.initDone := rfl
@[simp] theorem beginFrame_owner (f : Frame) (s : State) : (beginFrame f s).owner = s.owner := rfl
@[simp] theorem beginFrame_beakR (f : Frame) (s : State) : (beginFrame f s).beakR = s.beakR := rfl
@[simp] theorem beginFrame_beakG (f : Frame) (s : State) : (beginFrame f s).beakG = s.beakG := rfl
@[simp] theorem beginFrame_beakB (f : Frame) (s : State) : (beginFrame f s).beakB = s.beakB := rfl
@[simp] theorem beginFrame_snap (f : Frame) (s : State) : (beginFrame f s).snap = s.snap := rfl
@[simp] theorem beginFrame_snapTime (f : Frame) (s : State) : (beginFrame f s).snapTime = s.snapTime := rfl
@[simp] theorem beginFrame_sclk (f : Frame) (s : State) : (beginFrame f s).sclk = s.sclk := rfl
@[simp] theorem beginFrame_mosi (f : Frame) (s : State) : (beginFrame f s).mosi = s.mosi := rfl
@[simp] theorem beginFrame_hRdata (f : Frame) (s : State) : (beginFrame f s).hRdata = s.hRdata := rfl
@[simp] theorem beginFrame_rstN (f : Frame) (s : State) : (beginFrame f s).rstN = s.rstN := rfl
@[simp] theorem beginFrame_now (f : Frame) (s : State) : (beginFrame f s).now = s.now := rfl
@[simp] theorem beginFrame_pins (f : Frame) (s : State) : (beginFrame f s).pins = s.pins := rfl
@[simp] theorem beginFrame_rx (f : Frame) (s : State) : (beginFrame f s).rx = s.rx := rfl
@[simp] theorem beginFrame_slotOut (f : Frame) (s : State) : (beginFrame f s).slotOut = s.slotOut := rfl
@[simp] theorem beginFrame_cur (f : Frame) (s : State) : (beginFrame f s).cur = s.cur := rfl
@[simp] theorem beginFrame_script (f : Frame) (s : State) : (beginFrame f s).script = s.script := rfl
@[simp] theorem beginFrame_draws (f : Frame) (s : State) : (beginFrame f s).draws = s.draws := rfl

@[simp] theorem exchange_cfg (s : State) : (exchange s).cfg = s.cfg := rfl
@[simp] theorem exchange_ready (s : State) : (exchange s).ready = s.ready := rfl
@[simp] theorem exchange_initDone (s : State) : (exchange s).initDone = s.initDone := rfl
@[simp] theorem exchange_owner (s : State) : (exchange s).owner = s.owner := rfl
@[simp] theorem exchange_xfer (s : State) : (exchange s).xfer = s.xfer := rfl
@[simp] theorem exchange_beakR (s : State) : (exchange s).beakR = s.beakR := rfl
@[simp] theorem exchange_beakG (s : State) : (exchange s).beakG = s.beakG := rfl
@[simp] theorem exchange_beakB (s : State) : (exchange s).beakB = s.beakB := rfl
@[simp] theorem exchange_snap (s : State) : (exchange s).snap = s.snap := rfl
@[simp] theorem exchange_snapTime (s : State) : (exchange s).snapTime = s.snapTime := rfl
@[simp] theorem exchange_csN (s : State) : (exchange s).csN = s.csN := rfl
@[simp] theorem exchange_sclk (s : State) : (exchange s).sclk = s.sclk := rfl
@[simp] theorem exchange_mosi (s : State) : (exchange s).mosi = s.mosi := rfl
@[simp] theorem exchange_hRdata (s : State) : (exchange s).hRdata = s.hRdata := rfl
@[simp] theorem exchange_rstN (s : State) : (exchange s).rstN = s.rstN := rfl
@[simp] theorem exchange_now (s : State) : (exchange s).now = s.now := rfl
@[simp] theorem exchange_pins (s : State) : (exchange s).pins = s.pins := rfl
@[simp] theorem exchange_tx (s : State) : (exchange s).tx = s.tx := rfl
@[simp] theorem exchange_slot (s : State) : (exchange s).slot = s.slot := rfl
@[simp] theorem exchange_cur (s : State) : (exchange s).cur = s.cur := rfl
@[simp] theorem exchange_script (s : State) : (exchange s).script = s.script := rfl
@[simp] theorem exchange_draws (s : State) : (exchange s).draws = s.draws := rfl

@[simp] theorem endFrame_cfg (s : State) : (endFrame s).cfg = s.cfg := rfl
@[simp] theorem endFrame_ready (s : State) : (endFrame s).ready = s.ready := rfl
@[simp] theorem endFrame_initDone (s : State) : (endFrame s).initDone = s.initDone := rfl
@[simp] theorem endFrame_owner (s : State) : (endFrame s).owner = s.owner := rfl
@[simp] theorem endFrame_beakR (s : State) : (endFrame s).beakR = s.beakR := rfl
@[simp] theorem endFrame_beakG (s : State) : (endFrame s).beakG = s.beakG := rfl
@[simp] theorem endFrame_beakB (s : State) : (endFrame s).beakB = s.beakB := rfl
@[simp] theorem endFrame_snap (s : State) : (endFrame s).snap = s.snap := rfl
@[simp] theorem endFrame_snapTime (s : State) : (endFrame s).snapTime = s.snapTime := rfl
@[simp] theorem endFrame_sclk (s : State) : (endFrame s).sclk = s.sclk := rfl
@[simp] theorem endFrame_mosi (s : State) : (endFrame s).mosi = s.mosi := rfl
@[simp] theorem endFrame_hRdata (s : State) : (endFrame s).hRdata = s.hRdata := rfl
@[simp] theorem endFrame_rstN (s : State) : (endFrame s).rstN = s.rstN := rfl
@[simp] theorem endFrame_now (s : State) : (endFrame s).now = s.now := rfl
@[simp] theorem endFrame_pins (s : State) : (endFrame s).pins = s.pins := rfl
@[simp] theorem endFrame_tx (s : State) : (endFrame s).tx = s.tx := rfl
@[simp] theorem endFrame_rx (s : State) : (endFrame s).rx = s.rx := rfl
@[simp] theorem endFrame_slotOut (s : State) : (endFrame s).slotOut = s.slotOut := rfl
@[simp] theorem endFrame_cur (s : State) : (endFrame s).cur = s.cur := rfl
@[simp] theorem endFrame_script (s : State) : (endFrame s).script = s.script := rfl
@[simp] theorem endFrame_draws (s : State) : (endFrame s).draws = s.draws := rfl

@[simp] theorem commitFrame_cfg (k : Kind) (s : State) : (commitFrame k s).cfg = s.cfg := rfl
@[simp] theorem commitFrame_ready (k : Kind) (s : State) : (commitFrame k s).ready = s.ready := rfl
@[simp] theorem commitFrame_initDone (k : Kind) (s : State) : (commitFrame k s).initDone = s.initDone := rfl
@[simp] theorem commitFrame_owner (k : Kind) (s : State) : (commitFrame k s).owner = s.owner := rfl
@[simp] theorem commitFrame_xfer (k : Kind) (s : State) : (commitFrame k s).xfer = s.xfer := rfl
@[simp] theorem commitFrame_beakR (k : Kind) (s : State) : (commitFrame k s).beakR = s.beakR := rfl
@[simp] theorem commitFrame_beakG (k : Kind) (s : State) : (commitFrame k s).beakG = s.beakG := rfl
@[simp] theorem commitFrame_beakB (k : Kind) (s : State) : (commitFrame k s).beakB = s.beakB := rfl
@[simp] theorem commitFrame_csN (k : Kind) (s : State) : (commitFrame k s).csN = s.csN := rfl
@[simp] theorem commitFrame_sclk (k : Kind) (s : State) : (commitFrame k s).sclk = s.sclk := rfl
@[simp] theorem commitFrame_mosi (k : Kind) (s : State) : (commitFrame k s).mosi = s.mosi := rfl
@[simp] theorem commitFrame_hRdata (k : Kind) (s : State) : (commitFrame k s).hRdata = s.hRdata := rfl
@[simp] theorem commitFrame_rstN (k : Kind) (s : State) : (commitFrame k s).rstN = s.rstN := rfl
@[simp] theorem commitFrame_now (k : Kind) (s : State) : (commitFrame k s).now = s.now := rfl
@[simp] theorem commitFrame_pins (k : Kind) (s : State) : (commitFrame k s).pins = s.pins := rfl
@[simp] theorem commitFrame_tx (k : Kind) (s : State) : (commitFrame k s).tx = s.tx := rfl
@[simp] theorem commitFrame_rx (k : Kind) (s : State) : (commitFrame k s).rx = s.rx := rfl
@[simp] theorem commitFrame_slot (k : Kind) (s : State) : (commitFrame k s).slot = s.slot := rfl
@[simp] theorem commitFrame_slotOut (k : Kind) (s : State) : (commitFrame k s).slotOut = s.slotOut := rfl
@[simp] theorem commitFrame_cur (k : Kind) (s : State) : (commitFrame k s).cur = s.cur := rfl
@[simp] theorem commitFrame_script (k : Kind) (s : State) : (commitFrame k s).script = s.script := rfl
@[simp] theorem commitFrame_draws (k : Kind) (s : State) : (commitFrame k s).draws = s.draws := rfl

@[simp] theorem claim_ready (s : State) : (claim s).ready = false := rfl
@[simp] theorem claim_owner (s : State) : (claim s).owner = some s.cur := rfl
@[simp] theorem release_ready (s : State) : (release s).ready = true := rfl
@[simp] theorem release_owner (s : State) : (release s).owner = none := rfl
@[simp] theorem release_ctxs (s : State) : (release s).ctxs = s.ctxs := rfl
@[simp] theorem beginFrame_ctxs (f : Frame) (s : State) : (beginFrame f s).ctxs = s.ctxs := rfl
@[simp] theorem beginFrame_xfer (f : Frame) (s : State) : (beginFrame f s).xfer = true := rfl
@[simp] theorem beginFrame_csN (f : Frame) (s : State) : (beginFrame f s).csN = false := rfl
@[simp] theorem beginFrame_tx (f : Frame) (s : State) : (beginFrame f s).tx = f := rfl
@[simp] theorem beginFrame_slot (f : Frame) (s : State) : (beginFrame f s).slot = 0 := rfl
@[simp] theorem exchange_ctxs (s : State) : (exchange s).ctxs = s.ctxs := rfl
@[simp] theorem exchange_slotOut (s : State) : (exchange s).slotOut = s.tx[s.slot.val] := rfl
@[simp] theorem exchange_rx (s : State) : (exchange s).rx = s.rx.set s.slot.val s.pins.miso := rfl
@[simp] theorem endFrame_xfer (s : State) : (endFrame s).xfer = false := rfl
@[simp] theorem endFrame_csN (s : State) : (endFrame s).csN = true := rfl
@[simp] theorem endFrame_slot (s : State) : (endFrame s).slot = 0 := rfl
@[simp] theorem commitFrame_snap (k : Kind) (s : State) : (commitFrame k s).snap = s.rx := rfl
@[simp] theorem commitFrame_snapTime (k : Kind) (s : State) : (commitFrame k s).snapTime = if k = Kind.sensorRead then s.now else s.snapTime := rfl

end Sys2Proof.Machine
end

