-- ==== Sys2Proof/Laws/Ops.lean ====
section
/-! SUPPORT. What the shared operations leave, and what a step of an op can be: one spec lemma for each
operation, and one inversion of exec. -/

namespace Sys2Proof.Machine

/-! ### One write of context cur: the form every step of an op has -/

theorem updMe_updMe (s : State) (f g : Ctx → Ctx) : (s.updMe f).updMe g = s.updMe fun c => g (f c) := by
  simp [State.updMe, State.updCtx, List.modify_modify_eq, Function.comp_def]

theorem me_updMe_of {s u : State} (f : Ctx → Ctx) (hc : s.cur < s.ctxs.length) (hu : u.ctxs = s.ctxs)
    (hcur : u.cur = s.cur) : (u.updMe f).me = f s.me := by
  have hme : u.me = s.me := by simp [State.me, State.ctx, hu, hcur]
  rw [me_updMe f (by rw [hu, hcur]; exact hc), hme]

theorem ctxKept_updMe {s u : State} (f : Ctx → Ctx) (hc : s.cur < s.ctxs.length) (hu : u.ctxs = s.ctxs)
    (hcur : u.cur = s.cur) (hcmd : (f s.me).cmd = s.me.cmd) (hovr : (f s.me).ovr = s.me.ovr)
    (htx : (f s.me).txbuf = s.me.txbuf) : CtxKept s (u.updMe f) := by
  have hme := me_updMe_of f hc hu hcur
  refine ⟨by simp [hu], fun k hk => ?_, by rw [hme, hcmd], by rw [hme, hovr], by rw [hme, htx]⟩
  rw [ctx_updMe_ne f (by rw [hcur]; exact hk)]
  simp [State.ctx, hu]

/-! ### What the operations leave in context cur -/

theorem finish_me {s : State} (code : RCode) (r : Int) (h : s.cur < s.ctxs.length) :
    (finish code r s).me =
      { s.me with rcode := code, result := BitVec.ofInt 32 r, busy := false, phase := .idle, polls := 0 } :=
  me_updMe _ h

theorem finish_finished {s : State} (code : RCode) (r : Int) (h : s.cur < s.ctxs.length) :
    Finished (finish code r s) code r := by
  simp [Finished, finish_me code r h]

theorem finish_ctx_ne {s : State} {k : Nat} (code : RCode) (r : Int) (h : k ≠ s.cur) :
    (finish code r s).ctx k = s.ctx k :=
  ctx_updMe_ne _ h

@[simp] theorem finish_length (code : RCode) (r : Int) (s : State) :
    (finish code r s).ctxs.length = s.ctxs.length :=
  length_updMe s _

theorem latch_me {s : State} (l : Latch) (h : s.cur < s.ctxs.length) :
    (latch l s).me = { s.me with lat := some l } :=
  me_updMe _ h

theorem latch_ctx_ne {s : State} {k : Nat} (l : Latch) (h : k ≠ s.cur) : (latch l s).ctx k = s.ctx k :=
  ctx_updMe_ne _ h

@[simp] theorem latch_length (l : Latch) (s : State) : (latch l s).ctxs.length = s.ctxs.length := length_updMe s _

theorem goPoll_me {s : State} (h : s.cur < s.ctxs.length) :
    (goPoll s).me = { s.me with polls := 0, wait := 0, phase := .poll } :=
  me_updMe _ h

theorem goPoll_ctx_ne {s : State} {k : Nat} (h : k ≠ s.cur) : (goPoll s).ctx k = s.ctx k := ctx_updMe_ne _ h

@[simp] theorem goPoll_length (s : State) : (goPoll s).ctxs.length = s.ctxs.length := length_updMe s _

theorem goAge_me {s : State} (h : s.cur < s.ctxs.length) : (goAge s).me = { s.me with phase := .age } := me_updMe _ h

theorem goAge_ctx_ne {s : State} {k : Nat} (h : k ≠ s.cur) : (goAge s).ctx k = s.ctx k := ctx_updMe_ne _ h

@[simp] theorem goAge_length (s : State) : (goAge s).ctxs.length = s.ctxs.length := length_updMe s _

theorem claim_me {s : State} (h : s.cur < s.ctxs.length) : (claim s).me = { s.me with phase := .xfer } :=
  me_updMe (s := { s with ready := false, owner := some s.cur }) _ h

theorem claim_ctx_ne {s : State} {k : Nat} (h : k ≠ s.cur) : (claim s).ctx k = s.ctx k :=
  ctx_updMe_ne (s := { s with ready := false, owner := some s.cur }) _ h

@[simp] theorem claim_length (s : State) : (claim s).ctxs.length = s.ctxs.length :=
  length_updMe { s with ready := false, owner := some s.cur } _

theorem endFrame_me {s : State} (h : s.cur < s.ctxs.length) : (endFrame s).me = { s.me with phase := .commit } :=
  me_updMe (s := { s with xfer := false, csN := true, slot := 0 }) _ h

theorem endFrame_ctx_ne {s : State} {k : Nat} (h : k ≠ s.cur) : (endFrame s).ctx k = s.ctx k :=
  ctx_updMe_ne (s := { s with xfer := false, csN := true, slot := 0 }) _ h

@[simp] theorem endFrame_length (s : State) : (endFrame s).ctxs.length = s.ctxs.length :=
  length_updMe { s with xfer := false, csN := true, slot := 0 } _

theorem commitFrame_me {s : State} (k : Kind) (h : s.cur < s.ctxs.length) :
    (commitFrame k s).me = { s.me with rxbuf := s.rx } :=
  me_updMe (s := { s with snap := s.rx, snapTime := if k = Kind.sensorRead then s.now else s.snapTime }) _ h

theorem commitFrame_ctx_ne {s : State} {j : Nat} (k : Kind) (h : j ≠ s.cur) : (commitFrame k s).ctx j = s.ctx j :=
  ctx_updMe_ne (s := { s with snap := s.rx, snapTime := if k = Kind.sensorRead then s.now else s.snapTime }) _ h

@[simp] theorem commitFrame_length (k : Kind) (s : State) : (commitFrame k s).ctxs.length = s.ctxs.length :=
  length_updMe { s with snap := s.rx, snapTime := if k = Kind.sensorRead then s.now else s.snapTime } _

@[simp] theorem release_ctx (s : State) (k : Nat) : (release s).ctx k = s.ctx k := rfl
@[simp] theorem release_me (s : State) : (release s).me = s.me := rfl
@[simp] theorem beginFrame_ctx (f : Frame) (s : State) (k : Nat) : (beginFrame f s).ctx k = s.ctx k := rfl
@[simp] theorem beginFrame_me (f : Frame) (s : State) : (beginFrame f s).me = s.me := rfl
@[simp] theorem exchange_ctx (s : State) (k : Nat) : (exchange s).ctx k = s.ctx k := rfl
@[simp] theorem exchange_me (s : State) : (exchange s).me = s.me := rfl

theorem withLatch_some {s : State} {l : Latch} (h : s.me.lat = some l) (f : Latch → StepResult) :
    withLatch s f = f l := by
  simp [withLatch, h]

theorem withLatch_next {s t : State} {f : Latch → StepResult} (h : withLatch s f = .next t) :
    ∃ l, s.me.lat = some l ∧ f l = .next t := by
  unfold withLatch at h
  split at h
  · exact ⟨_, ‹_›, h⟩
  · cases h

/-! ### The skeletons, phase by phase -/

theorem localOp_decode {s : State} (l : Latch) (work : State → State) (h : s.me.phase = .decode) :
    localOp l work s = .next (work (latch l s)) := by
  simp [localOp, h]

theorem plainOp_decode {s : State} (l : Latch) (stop : Option RCode) (build : Latch → State → Frame)
    (effect : Latch → State → State) (h : s.me.phase = .decode) :
    plainOp l stop build effect s = .next (decodeEnd stop (latch l s)) := by
  simp [plainOp, h]

theorem plainOp_poll {s : State} (l : Latch) (stop : Option RCode) (build : Latch → State → Frame)
    (effect : Latch → State → State) (h : s.me.phase = .poll) :
    plainOp l stop build effect s = .next (pollStep (finish .dropped 0) s) := by
  simp [plainOp, h]

theorem plainOp_xfer {s : State} {l' : Latch} (l : Latch) (stop : Option RCode) (build : Latch → State → Frame)
    (effect : Latch → State → State) (h : s.me.phase = .xfer) (ho : s.owner = some s.cur)
    (hl : s.me.lat = some l') : plainOp l stop build effect s = .next (byteStep build l' s) := by
  simp [plainOp, h, xferStep, ho, withLatch_some hl]

theorem plainOp_commit {s : State} {l' : Latch} (l : Latch) (stop : Option RCode) (build : Latch → State → Frame)
    (effect : Latch → State → State) (h : s.me.phase = .commit) (ho : s.owner = some s.cur)
    (hl : s.me.lat = some l') : plainOp l stop build effect s =
      .next (finish .ok 0 (release (effect l' (commitFrame l'.kind s)))) := by
  simp [plainOp, h, commitStep, ho, withLatch_some hl]

theorem cacheOp_decode {s : State} (l : Latch) (maxAge : Latch → State → Word) (fresh drop : Latch → State → State)
    (value : Latch → State → Int) (h : s.me.phase = .decode) :
    cacheOp l maxAge fresh drop value s = .next (goAge (latch l s)) := by
  simp [cacheOp, h]

theorem cacheOp_age {s : State} {l' : Latch} (l : Latch) (maxAge : Latch → State → Word)
    (fresh drop : Latch → State → State) (value : Latch → State → Int) (h : s.me.phase = .age)
    (hl : s.me.lat = some l') : cacheOp l maxAge fresh drop value s =
      .next (if stale s.now (maxAge l' s) s then goPoll s else fresh l' s) := by
  simp [cacheOp, h, withLatch_some hl]

theorem cacheOp_poll {s : State} {l' : Latch} (l : Latch) (maxAge : Latch → State → Word)
    (fresh drop : Latch → State → State) (value : Latch → State → Int) (h : s.me.phase = .poll)
    (hl : s.me.lat = some l') : cacheOp l maxAge fresh drop value s = .next (pollStep (drop l') s) := by
  simp [cacheOp, h, withLatch_some hl]

theorem cacheOp_xfer {s : State} {l' : Latch} (l : Latch) (maxAge : Latch → State → Word)
    (fresh drop : Latch → State → State) (value : Latch → State → Int) (h : s.me.phase = .xfer)
    (ho : s.owner = some s.cur) (hl : s.me.lat = some l') : cacheOp l maxAge fresh drop value s =
      .next (byteStep (fun _ s' => readFrame s'.cfg) l' s) := by
  simp [cacheOp, h, xferStep, ho, withLatch_some hl]

theorem cacheOp_commit {s : State} {l' : Latch} (l : Latch) (maxAge : Latch → State → Word)
    (fresh drop : Latch → State → State) (value : Latch → State → Int) (h : s.me.phase = .commit)
    (ho : s.owner = some s.cur) (hl : s.me.lat = some l') : cacheOp l maxAge fresh drop value s =
      .next (finish .ok (value l' (release (commitFrame l'.kind s))) (release (commitFrame l'.kind s))) := by
  simp [cacheOp, h, commitStep, ho, withLatch_some hl, noEffect]

/-! ### What a step of an op can be -/

/-- The states that a step of op i can lead to (R50). -/
inductive Move (i : Instr) (s : State) : State → Prop
  | localDone (l : Latch) (r : Int) (hp : s.me.phase = .decode) (hi : i.opClass = .localOp) (hn : i ≠ .init) :
      Move i s (finish .ok r (latch l s))
  | initDone (l : Latch) (hp : s.me.phase = .decode) (hi : i = .init) :
      Move i s (finish .ok 0 (initEffect (latch l s)))
  | decodeStop (l : Latch) (code : RCode) (hp : s.me.phase = .decode) (hi : i.opClass = .plainBus) :
      Move i s (finish code 0 (latch l s))
  | decodePoll (l : Latch) (hp : s.me.phase = .decode) (hi : i.opClass = .plainBus) (hl : l.op = i) :
      Move i s (goPoll (latch l s))
  | decodeAge (l : Latch) (hp : s.me.phase = .decode) (hi : i.opClass = .cache) (hl : l.op = i) :
      Move i s (goAge (latch l s))
  | ageFresh (code : RCode) (r : Int) (hp : s.me.phase = .age) (hi : i.opClass = .cache) : Move i s (finish code r s)
  | agePoll (hp : s.me.phase = .age) (hi : i.opClass = .cache) : Move i s (goPoll s)
  | pollClaim (hp : s.me.phase = .poll) (hi : i.opClass ≠ .localOp) (hr : s.ready = true) : Move i s (claim s)
  | pollAgain (hp : s.me.phase = .poll) (hi : i.opClass ≠ .localOp) (hr : s.ready = false)
      (hn : s.me.polls + 1 ≠ s.cfg.acqMax) :
      Move i s (s.updMe fun c => { c with polls := c.polls + 1, wait := Config.pollInterval })
  | pollDrop (r : Int) (hp : s.me.phase = .poll) (hi : i.opClass ≠ .localOp) (hr : s.ready = false)
      (hn : s.me.polls + 1 = s.cfg.acqMax) :
      Move i s (finish .dropped r (s.updMe fun c => { c with polls := c.polls + 1 }))
  | byte (build : Latch → State → Frame) (l : Latch) (hp : s.me.phase = .xfer) (hi : i.opClass ≠ .localOp)
      (ho : s.owner = some s.cur) (hl : s.me.lat = some l) : Move i s (byteStep build l s)
  | commit (l : Latch) (effect : Latch → State → State) (r : Int) (hp : s.me.phase = .commit)
      (hi : i.opClass ≠ .localOp) (ho : s.owner = some s.cur) (hl : s.me.lat = some l)
      (he : effect = noEffect ∨ (∃ p r g b, i = .setSingleLed p r g b) ∧ effect = setSingleEffect) :
      Move i s (finish .ok r (release (effect l (commitFrame l.kind s))))

theorem pollStep_move {i : Instr} {s : State} {timeout : State → State} {r : State → Int}
    (ht : ∀ u, timeout u = finish .dropped (r u) u) (hp : s.me.phase = .poll) (hi : i.opClass ≠ .localOp) :
    Move i s (pollStep timeout s) := by
  unfold pollStep
  split
  · exact .pollClaim hp hi ‹_›
  · have hr : s.ready = false := by simpa using ‹¬ s.ready = true›
    split
    · rw [ht]
      exact .pollDrop _ hp hi hr ‹_›
    · exact .pollAgain hp hi hr ‹_›

theorem localOp_move {i : Instr} {s t : State} {l : Latch} {r : State → Int} (hi : i.opClass = .localOp)
    (hn : i ≠ .init) (h : localOp l (fun u => finish .ok (r u) u) s = .next t) : Move i s t := by
  unfold localOp at h
  split at h
  case h_1 hp => cases h; exact .localDone l _ hp hi hn
  all_goals cases h

theorem plainOp_move {i : Instr} {s t : State} {l : Latch} {stop : Option RCode} {build : Latch → State → Frame}
    {effect : Latch → State → State} (hi : i.opClass = .plainBus) (hl : l.op = i)
    (he : effect = noEffect ∨ (∃ p r g b, i = .setSingleLed p r g b) ∧ effect = setSingleEffect)
    (h : plainOp l stop build effect s = .next t) : Move i s t := by
  have hc : i.opClass ≠ .localOp := by simp [hi]
  unfold plainOp at h
  split at h
  case h_1 hp =>
    cases h
    unfold decodeEnd
    split
    · exact .decodeStop l _ hp hi
    · exact .decodePoll l hp hi hl
  case h_2 hp => cases h; exact pollStep_move (r := fun _ => 0) (fun _ => rfl) hp hc
  case h_3 hp =>
    unfold xferStep at h
    split at h
    · obtain ⟨l', hl', h'⟩ := withLatch_next h
      cases h'
      exact .byte build l' hp hc ‹_› hl'
    · cases h
  case h_4 hp =>
    unfold commitStep at h
    split at h
    · obtain ⟨l', hl', h'⟩ := withLatch_next h
      cases h'
      exact .commit l' effect 0 hp hc ‹_› hl' he
    · cases h
  all_goals cases h

theorem cacheOp_move {i : Instr} {s t : State} {l : Latch} {maxAge : Latch → State → Word}
    {fresh drop : Latch → State → State} {value : Latch → State → Int} {code : RCode} {rf rd : Latch → State → Int}
    (hi : i.opClass = .cache) (hl : l.op = i) (hf : ∀ l' u, fresh l' u = finish code (rf l' u) u)
    (hd : ∀ l' u, drop l' u = finish .dropped (rd l' u) u)
    (h : cacheOp l maxAge fresh drop value s = .next t) : Move i s t := by
  have hc : i.opClass ≠ .localOp := by simp [hi]
  unfold cacheOp at h
  split at h
  case h_1 hp => cases h; exact .decodeAge l hp hi hl
  case h_2 hp =>
    obtain ⟨l', -, h'⟩ := withLatch_next h
    cases h'
    split
    · exact .agePoll hp hi
    · rw [hf]
      exact .ageFresh _ _ hp hi
  case h_3 hp =>
    obtain ⟨l', -, h'⟩ := withLatch_next h
    cases h'
    exact pollStep_move (hd l') hp hc
  case h_4 hp =>
    unfold xferStep at h
    split at h
    · obtain ⟨l', hl', h'⟩ := withLatch_next h
      cases h'
      exact .byte _ l' hp hc ‹_› hl'
    · cases h
  case h_5 hp =>
    unfold commitStep at h
    split at h
    · obtain ⟨l', hl', h'⟩ := withLatch_next h
      cases h'
      exact .commit l' noEffect _ hp hc ‹_› hl' (.inl rfl)
    · cases h
  all_goals cases h

theorem getterOp_move {i : Instr} {s t : State} {l : Latch} {eval : Latch → State → Int} (hi : i.opClass = .cache)
    (hl : l.op = i) (h : getterOp l eval s = .next t) : Move i s t :=
  cacheOp_move (code := .ok) (rf := fun l' u => sat32 (eval l' u)) (rd := fun l' u => sat32 (eval l' u)) hi hl
    (fun _ _ => rfl) (fun _ _ => rfl) h

theorem refresh_move {m : Nat} {s t : State} (h : execRefresh m s = .next t) : Move (.refresh m) s t :=
  cacheOp_move (l := { op := .refresh m, kind := .sensorRead, maxAge := BitVec.ofNat 32 m }) (code := .noxfer)
    (rf := fun _ _ => 0) (rd := fun _ _ => 0) rfl rfl (fun _ _ => rfl) (fun _ _ => rfl) h

theorem init_move {s t : State} (h : execInit s = .next t) : Move .init s t := by
  unfold execInit localOp at h
  split at h
  case h_1 hp => cases h; exact .initDone _ hp rfl
  all_goals cases h

/-- Every next state of exec is one of the moves. -/
theorem exec_move {i : Instr} {s t : State} (h : exec i s = .next t) : Move i s t := by
  cases i with
  | nop => unfold exec execNop at h; exact localOp_move (r := fun _ => 0) rfl (by decide) h
  | init => unfold exec at h; exact init_move h
  | stopAll => unfold exec execStopAll at h; exact plainOp_move rfl (by rfl) (.inl rfl) h
  | setAllLeds r g b => unfold exec execSetAllLeds at h; exact plainOp_move rfl (by rfl) (.inl rfl) h
  | setSingleLed port r g b =>
    unfold exec execSetSingleLed at h
    exact plainOp_move rfl (by rfl) (.inr ⟨⟨_, _, _, _, rfl⟩, rfl⟩) h
  | resetEncoders => unfold exec execResetEncoders at h; exact plainOp_move rfl (by rfl) (.inl rfl) h
  | readSensors => unfold exec execReadSensors at h; exact plainOp_move rfl (by rfl) (.inl rfl) h
  | move dir spd amt => unfold exec execMove at h; exact plainOp_move rfl (by rfl) (.inl rfl) h
  | turn dir spd amt => unfold exec execTurn at h; exact plainOp_move rfl (by rfl) (.inl rfl) h
  | setWheels lspd rspd => unfold exec execSetWheels at h; exact plainOp_move rfl (by rfl) (.inl rfl) h
  | xferRaw len fill => unfold exec execXferRaw at h; exact plainOp_move rfl (by rfl) (.inl rfl) h
  | refresh maxAge => unfold exec at h; exact refresh_move h
  | getDistance => unfold exec execGetDistance at h; exact getterOp_move rfl (by rfl) h
  | getLight sel => unfold exec execGetLight at h; exact getterOp_move rfl (by rfl) h
  | getLine sel => unfold exec execGetLine at h; exact getterOp_move rfl (by rfl) h
  | getBattery => unfold exec execGetBattery at h; exact getterOp_move rfl (by rfl) h
  | getEncoder sel => unfold exec execGetEncoder at h; exact getterOp_move rfl (by rfl) h
  | getPosflag => unfold exec execGetPosflag at h; exact getterOp_move rfl (by rfl) h
  | getAccel sel => unfold exec execGetAccel at h; exact localOp_move (r := fun _ => _) rfl (by simp) h
  | getMagnet sel => unfold exec execGetMagnet at h; exact localOp_move rfl (by simp) h
  | getCompass => unfold exec execGetCompass at h; exact localOp_move rfl (by simp) h
  | getOrient sel => unfold exec execGetOrient at h; exact localOp_move rfl (by simp) h

end Sys2Proof.Machine
end

