-- ==== Sys2Proof/Laws/PerInstr.lean ====
section
/-! SUPPORT. The round trip of R86 to R93, op by op: decoding the encoding of a well-formed op gives it back. -/

namespace Sys2Proof

theorem field_opWord_op {op args : Nat} (ho : op < 32) (ha : args < 2 ^ 27) : field (opWord op args) 27 5 = op := by
  simp only [field, opWord, BitVec.toNat_ofNat]
  omega

/-- A field inside w[26:0]. -/
theorem field_opWord_arg {op args lo len : Nat} (ho : op < 32) (ha : args < 2 ^ 27) (hl : lo + len ≤ 27) :
    field (opWord op args) lo len = args / 2 ^ lo % 2 ^ len := by
  have hw : (opWord op args).toNat = op * 2 ^ 27 + args := by
    simp only [opWord, BitVec.toNat_ofNat]
    omega
  obtain ⟨m, hm⟩ := Nat.exists_eq_add_of_le hl
  have h27 : 2 ^ 27 = 2 ^ lo * (2 ^ len * 2 ^ m) := by rw [hm]; ring
  have hsplit : op * 2 ^ 27 + args = args + 2 ^ lo * (2 ^ len * (2 ^ m * op)) := by rw [h27]; ring
  rw [field, hw, hsplit, Nat.add_mul_div_left _ _ (by positivity), Nat.add_mul_mod_self_left]

theorem signedByte_byteField {v : Int} (h : fitsSigned v = true) : signedByte (byteField v) = v := by
  simp only [fitsSigned, Bool.and_eq_true, decide_eq_true_eq] at h
  have hb : byteField v = (v % 256).toNat := rfl
  rw [signedByte]
  split <;> omega

theorem byteField_lt (v : Int) : byteField v < 256 := by
  simp only [byteField]
  omega

theorem bitField_lt (b : Bool) : bitField b < 2 := by cases b <;> decide

theorem beq_bitField (b : Bool) : (bitField b == 1) = b := by cases b <;> decide

namespace Laws

/-- Decoding an encoded well-formed op gives it back. -/
def RoundTrip.Statement (i : Instr) : Prop := i.wellFormed = true → decode (encode i) = .ok i

theorem RoundTrip.nop : RoundTrip.Statement .nop := fun _ => by decide
theorem RoundTrip.init : RoundTrip.Statement .init := fun _ => by decide
theorem RoundTrip.stopAll : RoundTrip.Statement .stopAll := fun _ => by decide
theorem RoundTrip.resetEncoders : RoundTrip.Statement .resetEncoders := fun _ => by decide
theorem RoundTrip.readSensors : RoundTrip.Statement .readSensors := fun _ => by decide
theorem RoundTrip.getDistance : RoundTrip.Statement .getDistance := fun _ => by decide
theorem RoundTrip.getBattery : RoundTrip.Statement .getBattery := fun _ => by decide
theorem RoundTrip.getPosflag : RoundTrip.Statement .getPosflag := fun _ => by decide
theorem RoundTrip.getCompass : RoundTrip.Statement .getCompass := fun _ => by decide

theorem RoundTrip.setAllLeds (r g b : Nat) : RoundTrip.Statement (.setAllLeds r g b) := fun h => by
  simp only [Instr.wellFormed, fitsByte, Bool.and_eq_true, decide_eq_true_eq] at h
  have ha : r * 2 ^ 16 + g * 2 ^ 8 + b < 2 ^ 27 := by omega
  simp only [encode, decode, field_opWord_op (op := 3) (by decide) ha,
    field_opWord_arg (op := 3) (lo := 16) (len := 8) (by decide) ha (by decide),
    field_opWord_arg (op := 3) (lo := 8) (len := 8) (by decide) ha (by decide),
    field_opWord_arg (op := 3) (lo := 0) (len := 8) (by decide) ha (by decide)]
  congr <;> omega

theorem RoundTrip.setSingleLed (port r g b : Nat) : RoundTrip.Statement (.setSingleLed port r g b) := fun h => by
  simp only [Instr.wellFormed, fitsByte, fitsThree, Bool.and_eq_true, decide_eq_true_eq] at h
  have ha : port * 2 ^ 24 + r * 2 ^ 16 + g * 2 ^ 8 + b < 2 ^ 27 := by omega
  simp only [encode, decode, field_opWord_op (op := 4) (by decide) ha,
    field_opWord_arg (op := 4) (lo := 24) (len := 3) (by decide) ha (by decide),
    field_opWord_arg (op := 4) (lo := 16) (len := 8) (by decide) ha (by decide),
    field_opWord_arg (op := 4) (lo := 8) (len := 8) (by decide) ha (by decide),
    field_opWord_arg (op := 4) (lo := 0) (len := 8) (by decide) ha (by decide)]
  congr <;> omega

/-- The three fields of format M. -/
theorem formatM_fields {op amt : Nat} {dir : Bool} {spd : Int} (ho : op < 32) (hs : fitsSigned spd = true)
    (ha : amt < 65536) :
    let w := opWord op (bitField dir * 2 ^ 26 + byteField spd * 2 ^ 16 + amt)
    field w 27 5 = op ∧ (field w 26 1 == 1) = dir ∧ signedByte (field w 16 8) = spd ∧ field w 0 16 = amt := by
  have hb := byteField_lt spd
  have hd := bitField_lt dir
  intro w
  have ha' : bitField dir * 2 ^ 26 + byteField spd * 2 ^ 16 + amt < 2 ^ 27 := by omega
  have h26 : field w 26 1 = bitField dir := by
    rw [field_opWord_arg ho ha' (by decide)]
    omega
  have h16 : field w 16 8 = byteField spd := by
    rw [field_opWord_arg ho ha' (by decide)]
    omega
  have h0 : field w 0 16 = amt := by
    rw [field_opWord_arg ho ha' (by decide)]
    omega
  exact ⟨field_opWord_op ho ha', by rw [h26, beq_bitField], by rw [h16, signedByte_byteField hs], h0⟩

theorem RoundTrip.move (dir : Bool) (spd : Int) (amt : Nat) : RoundTrip.Statement (.move dir spd amt) := fun h => by
  simp only [Instr.wellFormed, fitsHalf, Bool.and_eq_true, decide_eq_true_eq] at h
  obtain ⟨ho, hd, hs, ha⟩ := formatM_fields (op := 7) (dir := dir) (by decide) h.1 h.2
  simp only [encode, decode, ho, hd, hs, ha]

theorem RoundTrip.turn (dir : Bool) (spd : Int) (amt : Nat) : RoundTrip.Statement (.turn dir spd amt) := fun h => by
  simp only [Instr.wellFormed, fitsHalf, Bool.and_eq_true, decide_eq_true_eq] at h
  obtain ⟨ho, hd, hs, ha⟩ := formatM_fields (op := 8) (dir := dir) (by decide) h.1 h.2
  simp only [encode, decode, ho, hd, hs, ha]

theorem RoundTrip.setWheels (lspd rspd : Int) : RoundTrip.Statement (.setWheels lspd rspd) := fun h => by
  simp only [Instr.wellFormed, Bool.and_eq_true] at h
  have hl := byteField_lt lspd
  have hr := byteField_lt rspd
  have ha : byteField lspd * 2 ^ 8 + byteField rspd < 2 ^ 27 := by omega
  have h8 : field (opWord 9 (byteField lspd * 2 ^ 8 + byteField rspd)) 8 8 = byteField lspd := by
    rw [field_opWord_arg (by decide) ha (by decide)]
    omega
  have h0 : field (opWord 9 (byteField lspd * 2 ^ 8 + byteField rspd)) 0 8 = byteField rspd := by
    rw [field_opWord_arg (by decide) ha (by decide)]
    omega
  simp only [encode, decode, field_opWord_op (op := 9) (by decide) ha, h8, h0, signedByte_byteField h.1,
    signedByte_byteField h.2]

theorem RoundTrip.xferRaw (len : Nat) (fill : Byte) : RoundTrip.Statement (.xferRaw len fill) := fun h => by
  simp only [Instr.wellFormed, decide_eq_true_eq] at h
  have hf := fill.isLt
  have ha : len * 2 ^ 8 + fill.toNat < 2 ^ 27 := by omega
  have h8 : field (opWord 10 (len * 2 ^ 8 + fill.toNat)) 8 5 = len := by
    rw [field_opWord_arg (by decide) ha (by decide)]
    omega
  have h0 : field (opWord 10 (len * 2 ^ 8 + fill.toNat)) 0 8 = fill.toNat := by
    rw [field_opWord_arg (by decide) ha (by decide)]
    omega
  simp only [encode, decode, field_opWord_op (op := 10) (by decide) ha, h8, h0, BitVec.ofNat_toNat,
    BitVec.setWidth_eq]

theorem RoundTrip.refresh (maxAge : Nat) : RoundTrip.Statement (.refresh maxAge) := fun h => by
  simp only [Instr.wellFormed, fitsHalf, decide_eq_true_eq] at h
  have ha : maxAge < 2 ^ 27 := by omega
  have h0 : field (opWord 11 maxAge) 0 16 = maxAge := by
    rw [field_opWord_arg (by decide) ha (by decide)]
    omega
  simp only [encode, decode, field_opWord_op (op := 11) (by decide) ha, h0]

/-- The one field of format S. -/
theorem formatS_fields {op sel : Nat} (ho : op < 32) (hs : sel < 8) :
    field (opWord op sel) 27 5 = op ∧ field (opWord op sel) 0 3 = sel := by
  refine ⟨field_opWord_op ho (by omega), ?_⟩
  rw [field_opWord_arg ho (by omega) (by decide)]
  omega

theorem RoundTrip.getLight (sel : Nat) : RoundTrip.Statement (.getLight sel) := fun h => by
  simp only [Instr.wellFormed, fitsThree, decide_eq_true_eq] at h
  simp only [encode, decode, formatS_fields (op := 17) (by decide) h]

theorem RoundTrip.getLine (sel : Nat) : RoundTrip.Statement (.getLine sel) := fun h => by
  simp only [Instr.wellFormed, fitsThree, decide_eq_true_eq] at h
  simp only [encode, decode, formatS_fields (op := 18) (by decide) h]

theorem RoundTrip.getEncoder (sel : Nat) : RoundTrip.Statement (.getEncoder sel) := fun h => by
  simp only [Instr.wellFormed, fitsThree, decide_eq_true_eq] at h
  simp only [encode, decode, formatS_fields (op := 20) (by decide) h]

theorem RoundTrip.getAccel (sel : Nat) : RoundTrip.Statement (.getAccel sel) := fun h => by
  simp only [Instr.wellFormed, fitsThree, decide_eq_true_eq] at h
  simp only [encode, decode, formatS_fields (op := 24) (by decide) h]

theorem RoundTrip.getMagnet (sel : Nat) : RoundTrip.Statement (.getMagnet sel) := fun h => by
  simp only [Instr.wellFormed, fitsThree, decide_eq_true_eq] at h
  simp only [encode, decode, formatS_fields (op := 25) (by decide) h]

theorem RoundTrip.getOrient (sel : Nat) : RoundTrip.Statement (.getOrient sel) := fun h => by
  simp only [Instr.wellFormed, fitsThree, decide_eq_true_eq] at h
  simp only [encode, decode, formatS_fields (op := 27) (by decide) h]

end Laws

end Sys2Proof
end

