-- ==== Sys2Proof/Laws/Step.lean ====
section
/-! SUPPORT. What the event of a step leaves, and what a step can be: one inversion of step, and the equations of a
context's step and of the host's accesses. -/

namespace Sys2Proof.Machine

/-! ### The event -/

@[simp] theorem dropEvent_ctxs (s : State) : (dropEvent s).ctxs = s.ctxs := by unfold dropEvent; split <;> rfl
@[simp] theorem dropEvent_cfg (s : State) : (dropEvent s).cfg = s.cfg := by unfold dropEvent; split <;> rfl
@[simp] theorem observed_cfg (s : State) : (observed s).cfg = s.cfg := by unfold observed dropEvent; split <;> rfl
@[simp] theorem observed_ready (s : State) : (observed s).ready = s.ready := by unfold observed dropEvent; split <;> rfl
@[simp] theorem observed_initDone (s : State) : (observed s).initDone = s.initDone := by
  unfold observed dropEvent; split <;> rfl
@[simp] theorem observed_owner (s : State) : (observed s).owner = s.owner := by unfold observed dropEvent; split <;> rfl
@[simp] theorem observed_xfer (s : State) : (observed s).xfer = s.xfer := by unfold observed dropEvent; split <;> rfl
@[simp] theorem observed_beakR (s : State) : (observed s).beakR = s.beakR := by unfold observed dropEvent; split <;> rfl
@[simp] theorem observed_beakG (s : State) : (observed s).beakG = s.beakG := by unfold observed dropEvent; split <;> rfl
@[simp] theorem observed_beakB (s : State) : (observed s).beakB = s.beakB := by unfold observed dropEvent; split <;> rfl
@[simp] theorem observed_snap (s : State) : (observed s).snap = s.snap := by unfold observed dropEvent; split <;> rfl
@[simp] theorem observed_snapTime (s : State) : (observed s).snapTime = s.snapTime := by
  unfold observed dropEvent; split <;> rfl
@[simp] theorem observed_csN (s : State) : (observed s).csN = s.csN := by unfold observed dropEvent; split <;> rfl
@[simp] theorem observed_sclk (s : State) : (observed s).sclk = s.sclk := by unfold observed dropEvent; split <;> rfl
@[simp] theorem observed_hRdata (s : State) : (observed s).hRdata = s.hRdata := by
  unfold observed dropEvent; split <;> rfl
@[simp] theorem observed_rstN (s : State) : (observed s).rstN = s.rstN := by unfold observed dropEvent; split <;> rfl
@[simp] theorem observed_tx (s : State) : (observed s).tx = s.tx := by unfold observed dropEvent; split <;> rfl
@[simp] theorem observed_rx (s : State) : (observed s).rx = s.rx := by unfold observed dropEvent; split <;> rfl
@[simp] theorem observed_slot (s : State) : (observed s).slot = s.slot := by unfold observed dropEvent; split <;> rfl
@[simp] theorem observed_slotOut (s : State) : (observed s).slotOut = s.slotOut := by
  unfold observed dropEvent; split <;> rfl
@[simp] theorem observed_cur (s : State) : (observed s).cur = s.cur := by unfold observed dropEvent; split <;> rfl
@[simp] theorem observed_pins (s : State) : (observed s).pins = (nextEvent s).pins := by
  unfold observed dropEvent; split <;> rfl
@[simp] theorem observed_mosi (s : State) : (observed s).mosi = (nextEvent s).mosi := by
  unfold observed dropEvent; split <;> rfl
@[simp] theorem observed_length (s : State) : (observed s).ctxs.length = s.ctxs.length := by
  simp [observed, observe, passTime]

/-- The passing of time changes only the remaining wait of a context. -/
theorem waited_eq (d : Nat) (c : Ctx) : waited d c = { c with wait := (waited d c).wait } := by
  unfold waited
  split <;> rfl

theorem observed_ctx (s : State) (k : Nat) :
    (observed s).ctx k = waited (timeSlack s.ctxs (nextEvent s).elapsed) (s.ctx k) := by
  by_cases h : k < s.ctxs.length
  · simp [observed, observe, passTime, State.ctx, List.getElem?_eq_getElem h]
  · simp [observed, observe, passTime, State.ctx, List.getElem?_eq_none (Nat.le_of_not_lt h), waited, Ctx.reset]

theorem observed_ctx_wait (s : State) (k : Nat) :
    (observed s).ctx k = { s.ctx k with wait := ((observed s).ctx k).wait } := by
  rw [observed_ctx]
  exact waited_eq _ _

@[simp] theorem observed_ctx_cmd (s : State) (k : Nat) : ((observed s).ctx k).cmd = (s.ctx k).cmd := by
  rw [observed_ctx_wait]
@[simp] theorem observed_ctx_busy (s : State) (k : Nat) : ((observed s).ctx k).busy = (s.ctx k).busy := by
  rw [observed_ctx_wait]
@[simp] theorem observed_ctx_ovr (s : State) (k : Nat) : ((observed s).ctx k).ovr = (s.ctx k).ovr := by
  rw [observed_ctx_wait]
@[simp] theorem observed_ctx_rcode (s : State) (k : Nat) : ((observed s).ctx k).rcode = (s.ctx k).rcode := by
  rw [observed_ctx_wait]
@[simp] theorem observed_ctx_result (s : State) (k : Nat) : ((observed s).ctx k).result = (s.ctx k).result := by
  rw [observed_ctx_wait]
@[simp] theorem observed_ctx_txbuf (s : State) (k : Nat) : ((observed s).ctx k).txbuf = (s.ctx k).txbuf := by
  rw [observed_ctx_wait]
@[simp] theorem observed_ctx_rxbuf (s : State) (k : Nat) : ((observed s).ctx k).rxbuf = (s.ctx k).rxbuf := by
  rw [observed_ctx_wait]
@[simp] theorem observed_ctx_phase (s : State) (k : Nat) : ((observed s).ctx k).phase = (s.ctx k).phase := by
  rw [observed_ctx_wait]
@[simp] theorem observed_ctx_polls (s : State) (k : Nat) : ((observed s).ctx k).polls = (s.ctx k).polls := by
  rw [observed_ctx_wait]
@[simp] theorem observed_ctx_lat (s : State) (k : Nat) : ((observed s).ctx k).lat = (s.ctx k).lat := by
  rw [observed_ctx_wait]

@[simp] theorem atStep_cur (s : State) (k : Nat) : (atStep s k).cur = k := rfl
@[simp] theorem atStep_cfg (s : State) (k : Nat) : (atStep s k).cfg = s.cfg := observed_cfg s
@[simp] theorem atStep_ready (s : State) (k : Nat) : (atStep s k).ready = s.ready := observed_ready s
@[simp] theorem atStep_initDone (s : State) (k : Nat) : (atStep s k).initDone = s.initDone := observed_initDone s
@[simp] theorem atStep_owner (s : State) (k : Nat) : (atStep s k).owner = s.owner := observed_owner s
@[simp] theorem atStep_xfer (s : State) (k : Nat) : (atStep s k).xfer = s.xfer := observed_xfer s
@[simp] theorem atStep_beakR (s : State) (k : Nat) : (atStep s k).beakR = s.beakR := observed_beakR s
@[simp] theorem atStep_beakG (s : State) (k : Nat) : (atStep s k).beakG = s.beakG := observed_beakG s
@[simp] theorem atStep_beakB (s : State) (k : Nat) : (atStep s k).beakB = s.beakB := observed_beakB s
@[simp] theorem atStep_snap (s : State) (k : Nat) : (atStep s k).snap = s.snap := observed_snap s
@[simp] theorem atStep_snapTime (s : State) (k : Nat) : (atStep s k).snapTime = s.snapTime := observed_snapTime s
@[simp] theorem atStep_csN (s : State) (k : Nat) : (atStep s k).csN = s.csN := observed_csN s
@[simp] theorem atStep_sclk (s : State) (k : Nat) : (atStep s k).sclk = s.sclk := observed_sclk s
@[simp] theorem atStep_hRdata (s : State) (k : Nat) : (atStep s k).hRdata = s.hRdata := observed_hRdata s
@[simp] theorem atStep_rstN (s : State) (k : Nat) : (atStep s k).rstN = s.rstN := observed_rstN s
@[simp] theorem atStep_tx (s : State) (k : Nat) : (atStep s k).tx = s.tx := observed_tx s
@[simp] theorem atStep_rx (s : State) (k : Nat) : (atStep s k).rx = s.rx := observed_rx s
@[simp] theorem atStep_slot (s : State) (k : Nat) : (atStep s k).slot = s.slot := observed_slot s
@[simp] theorem atStep_slotOut (s : State) (k : Nat) : (atStep s k).slotOut = s.slotOut := observed_slotOut s
@[simp] theorem atStep_pins (s : State) (k : Nat) : (atStep s k).pins = (nextEvent s).pins := observed_pins s
@[simp] theorem atStep_length (s : State) (k : Nat) : (atStep s k).ctxs.length = s.ctxs.length := observed_length s
@[simp] theorem atStep_ctx (s : State) (j k : Nat) : (atStep s k).ctx j = (observed s).ctx j := rfl
@[simp] theorem atStep_me (s : State) (k : Nat) : (atStep s k).me = (observed s).ctx k := rfl

/-! ### What a step can be -/

/-- The states that a step can lead to (R28, R50). -/
inductive StepMove (s : State) : State → Prop
  | quiet (ha : ∀ h, (nextEvent s).act ≠ .host h) : StepMove s (observed s)
  | host (h : HostAccess) (t : State) (ha : (nextEvent s).act = .host h) (ht : hostAccess h (observed s) = .next t) :
      StepMove s t
  | illegal (k : Nat) (e : DecodeError) (hk : CtxSteps s k) (hp : (s.ctx k).phase = .decode)
      (hd : decode (s.ctx k).cmd = .error e) : StepMove s (finishIllegal (atStep s k))
  | decode (k : Nat) (i : Instr) (t : State) (hk : CtxSteps s k) (hp : (s.ctx k).phase = .decode)
      (hd : decode (s.ctx k).cmd = .ok i) (ht : exec i (atStep s k) = .next t) : StepMove s t
  | latched (k : Nat) (l : Latch) (t : State) (hk : CtxSteps s k) (hp : (s.ctx k).phase.latched = true)
      (hl : (s.ctx k).lat = some l) (hw : (s.ctx k).phase = .poll → ((observed s).ctx k).wait = 0)
      (ht : exec l.op (atStep s k) = .next t) : StepMove s t
  | rst (level : Bool) (ha : (nextEvent s).act = .rst level) : StepMove s (setRst level (observed s))

theorem getElem?_observed {s : State} {k : Nat} (h : k < s.ctxs.length) :
    (observed s).ctxs[k]? = some ((observed s).ctx k) := by
  have h' : k < (observed s).ctxs.length := by simpa using h
  simp [State.ctx, List.getElem?_eq_getElem h']

theorem latchedStep_next {k : Nat} {s t : State} (h : latchedStep (atStep s k) = .next t) :
    ∃ l, (s.ctx k).lat = some l ∧ exec l.op (atStep s k) = .next t := by
  obtain ⟨l, hl, h'⟩ := withLatch_next h
  exact ⟨l, by simpa using hl, h'⟩

/-- Every next state of step is one of the moves. -/
theorem step_move {s t : State} (h : step s = .next t) : StepMove s t := by
  change actStep (nextEvent s).act (observed s) = .next t at h
  unfold actStep at h
  split at h
  · cases h; exact .quiet (by simp_all)
  · exact .host _ _ ‹_› h
  · rename_i k ha
    split at h
    case isFalse => cases h; exact .quiet (by simp_all)
    case isTrue hr =>
      by_cases hk : k < s.ctxs.length
      case neg =>
        have : (observed s).ctxs[k]? = none := List.getElem?_eq_none (by simpa using hk)
        simp only [ctxStep, this] at h
        cases h; exact .quiet (by simp_all)
      have hs : CtxSteps s k := ⟨by simpa using hr, hk, ha⟩
      simp only [ctxStep, getElem?_observed hk, observed_ctx_phase] at h
      split at h
      · cases h; exact .quiet (by simp_all)
      · rename_i hp
        change decodeStep (atStep s k) = .next t at h
        unfold decodeStep at h
        split at h
        · rename_i i hd; exact .decode k i t hs hp (by simpa using hd) h
        · rename_i e hd; cases h; exact .illegal k e hs hp (by simpa using hd)
      · rename_i hp
        split at h
        · obtain ⟨l, hl, h'⟩ := latchedStep_next (s := s) (k := k) h
          exact .latched k l t hs (by rw [hp]; rfl) hl (fun _ => ‹_›) h'
        · cases h; exact .quiet (by simp_all)
      all_goals
        rename_i hp
        obtain ⟨l, hl, h'⟩ := latchedStep_next (s := s) (k := k) h
        exact .latched k l t hs (by rw [hp]; rfl) hl (by simp [hp]) h'
  · cases h; exact .rst _ ‹_›

/-! ### The step of each agent -/

theorem step_host {s : State} {h : HostAccess} (ha : (nextEvent s).act = .host h) :
    step s = hostAccess h (observed s) := by
  change actStep (nextEvent s).act (observed s) = _
  rw [ha]
  rfl

theorem step_rst {s : State} {level : Bool} (ha : (nextEvent s).act = .rst level) :
    step s = .next (setRst level (observed s)) := by
  change actStep (nextEvent s).act (observed s) = _
  rw [ha]
  rfl

theorem step_ctx {s : State} {k : Nat} (hk : CtxSteps s k) : step s = ctxStep k (observed s) := by
  change actStep (nextEvent s).act (observed s) = _
  rw [hk.2.2]
  simp [actStep, hk.1]

/-! ### The host's accesses -/

theorem accessOk_iff {a : BitVec 12} {be : BitVec 4} : accessOk a be = true ↔ a.toNat % 4 = 0 ∧ be = 0xF := by
  simp [accessOk]

theorem hostAccess_read {s : State} {a : BitVec 12} (hr : s.rstN = true) (ha : a.toNat % 4 = 0) :
    hostAccess (.read a 0xF) s = .next { s with hRdata := regRead s a } := by
  have hok : accessOk a 0xF = true := accessOk_iff.mpr ⟨ha, rfl⟩
  simp only [hostAccess, hok, hr, if_true]

theorem hostAccess_write {s : State} {a : BitVec 12} {w : Word} (hr : s.rstN = true) (ha : a.toNat % 4 = 0) :
    hostAccess (.write a 0xF w) s = .next (regWrite s a w) := by
  have hok : accessOk a 0xF = true := accessOk_iff.mpr ⟨ha, rfl⟩
  simp only [hostAccess, hok, hr, if_true]

/-- What a host access can do: read into h_rdata, or write at most one context. -/
theorem hostAccess_next {s t : State} {h : HostAccess} (ht : hostAccess h s = .next t) :
    (∃ v, t = { s with hRdata := v }) ∨ t = s
      ∨ ∃ a w, h = .write a 0xF w ∧ s.rstN = true ∧ 0x100 ≤ a.toNat ∧ a.toNat % 4 = 0
          ∧ t = s.updCtx ((a.toNat - 0x100) / 0x40) (ctxWrite ((a.toNat - 0x100) % 0x40) w) := by
  unfold hostAccess at ht
  split at ht
  · split at ht
    · cases ht; exact .inl ⟨_, rfl⟩
    · cases ht
  · rename_i a be w
    split at ht
    · rename_i hok
      obtain ⟨ha, rfl⟩ := accessOk_iff.mp hok
      cases ht
      split
      · unfold regWrite
        split
        · exact .inr (.inl rfl)
        · exact .inr (.inr ⟨a, w, rfl, ‹_›, by omega, ha, rfl⟩)
      · exact .inr (.inl rfl)
    · cases ht

end Sys2Proof.Machine
end

