-- ==== Sys2Proof/Tests/Slice0.lean ====
section
/-! SUPPORT. Tests: ill-formed terms refused, words written out from the spec's encoding, vectors of
95_test_vectors.md for one step each, and for each obligation with hypotheses a witness that meets them. -/

namespace Sys2Proof.Tests

/-! One theorem at a time: each kernel evaluation waits for the ones before it. -/
set_option Elab.async false

open Sys2Proof Sys2Proof.Machine Sys2Proof.Claims

/-! ### Small states -/

/-- EP1 of 95_test_vectors.md, with the opcode bytes of TA. -/
def ep1 : Config where
  nCtx := 2
  opcStop := 0x01
  opcSetAll := 0x02
  opcMotor := 0x03
  opcSingle := 0x04
  opcRead := 0x05
  opcResetEnc := 0x06
  posFlagByte := 7
  kSpd := 98304
  minMag := 5
  kTpc := 3260416
  kTpd := 278528
  kDist := 65536
  kBat := 1146880
  kBatOff := 0
  kTpr := 51904512
  encDec := 2
  lineOffset := 0
  lc := #v[#v[0, 0, 0, 0, 0, 0, 0, 0, 0, 0], #v[0, 8192, 0, 0, 64, 0, 0, 0, 0, 0]]
  cMnt := 12551
  sMnt := 10531
  orientT := 800
  staleWindow := 10
  acqMax := 3
  spiCpol := false
  spiCpha := false
  spiBitOrder := .msbFirst
  sclkHz := 1000000
  tCsLead := 0
  tByteGap := 0
  tCsLag := 0
  tu := 1

/-- EP2 of 95_test_vectors.md. -/
def ep2 : Config :=
  { ep1 with
    kSpd := 16384, kTpc := 19660800, kTpd := 16384, kBatOff := BitVec.ofInt 32 (-655360), lineOffset := 10,
    encDec := 0, cMnt := 16384, sMnt := 0
    isLegal := by decide }

/-- Input pins that hold only this acceleration and field. -/
def imu (ax ay az mx my mz : Int) : Pins where
  accX := BitVec.ofInt 16 ax
  accY := BitVec.ofInt 16 ay
  accZ := BitVec.ofInt 16 az
  magX := BitVec.ofInt 16 mx
  magY := BitVec.ofInt 16 my
  magZ := BitVec.ofInt 16 mz
  shake := false
  miso := 0xA5
  compassDraw := 1

def pins0 : Pins := imu 0 0 0 0 0 0

/-- A context that runs a word, in a phase. -/
def running (w : Word) (p : Phase) : Ctx := { Ctx.reset with cmd := w, busy := true, phase := p }

/-- A machine after INIT whose context 0 is this one, with the bus free. -/
def machine (cfg : Config) (c : Ctx) : State :=
  { State.atReset cfg with
    ready := true, initDone := true, mosi := false, now := 0, pins := pins0, ctxs := [c, Ctx.reset] }

/-- The same with context 0 holding the claim. -/
def claimed (cfg : Config) (c : Ctx) : State := { machine cfg c with ready := false, owner := some 0 }

/-- The next event is this agent's step, with no time passed. -/
def before (a : Act) (s : State) : State :=
  { s with script := [{ elapsed := 0, pins := pins0, mosi := false, act := a }] }

/-- A test on the next state that a step answers. -/
def next (r : StepResult) (f : State → Bool) : Bool :=
  match r with
  | .next t => f t
  | .fault _ => false
  | .refused _ => false

/-- A context in a phase with a LAT. -/
def latchedIn (p : Phase) (l : Latch) : Ctx := { running (encode l.op) p with lat := some l }

/-- The frame the op sends: its first byte step, in the state its decode step leaves, moved to the xfer phase. -/
def frameSent (i : Instr) (s : State) : List Byte :=
  match exec i s with
  | .next t =>
    match exec i { t.updMe fun c => { c with phase := .xfer } with owner := some t.cur } with
    | .next u => u.tx.toList
    | .fault _ => []
    | .refused _ => []
  | .fault _ => []
  | .refused _ => []

/-- S1 of 95_test_vectors.md. -/
def s1 : Frame :=
  #v[0x01, 0x00, 0x00, 0x1E, 0x32, 0x28, 0x05, 0x7F, 0x90, 0x00, 0x00, 0x10, 0xFF, 0xFF, 0xF0, 0x00]

/-- A getter in its age step on this snapshot, of age 5, with this beak red. -/
def aged (cfg : Config) (op : Instr) (sel : Nat) (snap : Frame) (red : Percent) : State :=
  { machine cfg (latchedIn .age { op := op, kind := .sensorRead, sel := sel }) with
    snap := snap, snapTime := 100, now := 105, beakR := red }

/-- An orientation op in its decode step. -/
def posed (cfg : Config) (p : Pins) : State := { machine cfg (running 0xC0000000 .decode) with pins := p }

/-- RESULT and RCODE of context 0, when the op has finished. -/
def result (r : StepResult) (code : RCode) (v : Int) : Bool :=
  next r fun t => t.me.rcode == code && t.me.result == BitVec.ofInt 32 v && !t.me.busy && t.me.phase == .idle

/-! ### WellFormed refuses an ill-formed term of each check -/

theorem test_wf_byte : (Instr.setAllLeds 256 0 0).wellFormed = false := by decide
theorem test_wf_byte_max : (Instr.setSingleLed 7 255 255 255).wellFormed = true := by decide
theorem test_wf_three : (Instr.setSingleLed 8 0 0 0).wellFormed = false := by decide
theorem test_wf_sel : (Instr.getOrient 8).wellFormed = false := by decide
theorem test_wf_signed_high : (Instr.setWheels 0 128).wellFormed = false := by decide
theorem test_wf_signed_low : (Instr.move true (-129) 0).wellFormed = false := by decide
theorem test_wf_signed_edges : (Instr.setWheels (-128) 127).wellFormed = true := by decide
theorem test_wf_half : (Instr.turn false 0 65536).wellFormed = false := by decide
theorem test_wf_half_refresh : (Instr.refresh 65536).wellFormed = false := by decide
theorem test_wf_len : (Instr.xferRaw 32 0).wellFormed = false := by decide
theorem test_wf_len_max : (Instr.xferRaw 31 0).wellFormed = true := by decide

/-! ### Decoding, by words written out from R87 and R90: OP, then the format's fields -/

theorem test_decode_nop : decode 0b00000_000000000000000000000000000 = .ok .nop := by decide
theorem test_decode_init : decode 0b00001_000000000000000000000000000 = .ok .init := by decide
theorem test_decode_stopAll : decode 0b00010_000000000000000000000000000 = .ok .stopAll := by decide
theorem test_decode_setAllLeds :
    decode 0b00011_111_01100100_00110010_00000000 = .ok (.setAllLeds 100 50 0) := by decide
theorem test_decode_setSingleLed :
    decode 0b00100_101_00001010_00010100_00011110 = .ok (.setSingleLed 5 10 20 30) := by decide
theorem test_decode_resetEncoders : decode 0b00101_000000000000000000000000000 = .ok .resetEncoders := by decide
theorem test_decode_readSensors : decode 0b00110_000000000000000000000000000 = .ok .readSensors := by decide
theorem test_decode_move :
    decode 0b00111_1_00_11001110_0000000000001010 = .ok (.move true (-50) 10) := by decide
theorem test_decode_move_reserved :
    decode 0b00111_0_11_00110010_0000000000001010 = .ok (.move false 50 10) := by decide
theorem test_decode_turn :
    decode 0b01000_0_00_10000000_0000000001011010 = .ok (.turn false (-128) 90) := by decide
theorem test_decode_setWheels :
    decode 0b01001_00000000000_11001110_01100100 = .ok (.setWheels (-50) 100) := by decide
theorem test_decode_xferRaw :
    decode 0b01010_00000000000000_10001_11101110 = .ok (.xferRaw 17 0xEE) := by decide
theorem test_decode_refresh : decode 0b01011_00000000000_1000000000000001 = .ok (.refresh 32769) := by decide
theorem test_decode_getDistance : decode 0b10000_000000000000000000000000000 = .ok .getDistance := by decide
theorem test_decode_getLight : decode 0b10001_000000000000000000000000_111 = .ok (.getLight 7) := by decide
theorem test_decode_getLine : decode 0b10010_000000000000000000000000_001 = .ok (.getLine 1) := by decide
theorem test_decode_getBattery : decode 0b10011_000000000000000000000000000 = .ok .getBattery := by decide
theorem test_decode_getEncoder : decode 0b10100_000000000000000000000000_001 = .ok (.getEncoder 1) := by decide
theorem test_decode_getPosflag : decode 0b10101_000000000000000000000000000 = .ok .getPosflag := by decide
theorem test_decode_getAccel : decode 0b11000_000000000000000000000000_010 = .ok (.getAccel 2) := by decide
theorem test_decode_getMagnet : decode 0b11001_000000000000000000000000_101 = .ok (.getMagnet 5) := by decide
theorem test_decode_getCompass : decode 0b11010_000000000000000000000000000 = .ok .getCompass := by decide
theorem test_decode_getOrient : decode 0b11011_000000000000000000000000_100 = .ok (.getOrient 4) := by decide
theorem test_decode_reserved : decode 0b11111_000000000000000000000000000 = .error (.reservedOp 0x1F) := by decide
theorem test_decode_nop_reserved_bits : decode 0x07FFFFFF = .ok .nop := by decide

/-! The syntax table of R93 and the pseudo-ops of R94. -/

theorem test_encode_move : encode (.move false (-50) 10) = 0x38CE000A := by decide
theorem test_encode_xferRaw : encode (.xferRaw 3 0xEE) = 0x500003EE := by decide
theorem test_encode_setBeak : encode (Instr.setBeak 100 0 0) = 0x20640000 := by decide
theorem test_encode_setTail : encode (Instr.setTail 4 10 20 30) = 0x240A141E := by decide
theorem test_encode_setTails : encode (Instr.setTails 100 50 0) = 0x18643200 := by decide
theorem test_encode_motorStop : encode Instr.motorStop = 0x48000000 := by decide
theorem test_encode_forward : encode (Instr.forward 10 50) = 0x3832000A := by decide
theorem test_encode_backward : encode (Instr.backward 10 50) = 0x3C32000A := by decide

/-! ### Arithmetic (95_test_vectors.md 3.1, 3.2, 3.4, 8.1) -/

theorem test_convertSpeed_ep1 :
    [0, 1, 3, 4, 50, 84, 85, 100, -1, -50, -100].map (convertSpeed ep1)
      = [0x00, 0x85, 0x85, 0x86, 0xCB, 0xFE, 0xFF, 0xFF, 0x05, 0x4B, 0x7F] := by decide +kernel
theorem test_convertSpeed_ep2 :
    [0, 1, 2, 50, 85, -1, -2, -84].map (convertSpeed ep2)
      = [0x00, 0x80, 0x85, 0x8D, 0x95, 0x00, 0x05, 0x15] := by decide +kernel
theorem test_ticks_ep1 :
    [0, 1, 10, 65535].map (fun a => ticks a ep1.kTpc) = [0, 50, 498, 3260366]
      ∧ [1, 90, 360].map (fun a => ticks a ep1.kTpd) = [4, 383, 1530] := by decide +kernel
theorem test_ticks_ep2 :
    [55924, 55925, 65535].map (fun a => ticks a ep2.kTpc) = [16777200, 16777215, 16777215]
      ∧ [1, 2].map (fun a => ticks a ep2.kTpd) = [0, 1] := by decide +kernel
theorem test_colourByte :
    ([0, 1, 10, 20, 30, 50, 99, 100] : List Percent).map colourByte
      = [0x00, 0x03, 0x1A, 0x33, 0x4D, 0x80, 0xFC, 0xFF] := by decide
theorem test_rotA :
    rotA 12551 10531 (100, -200, 300) = (100, -346, 101)
      ∧ rotA 12551 10531 (0, -32768, -32768) = (0, -4040, -46164) := by decide
theorem test_rotM :
    rotM 12551 10531 (100, -200, 300) = (100, 40, 358) ∧ rotM 12551 10531 (0, 306, 257) = (0, 400, 0) := by decide

/-! ### One step of each op (95_test_vectors.md 3.3 to 8.3) -/

theorem test_nop : result (execNop (machine ep1 (running 0 .decode))) .ok 0 = true := by decide +kernel
theorem test_init :
    next (execInit { machine ep1 (running 0x08000000 .decode) with ready := false, initDone := false })
      (fun t => gstatusWord t == 0x00000003 && statusWord t.me == 0x00000000) = true := by decide +kernel
theorem test_init_again_while_claimed :
    next (execInit (claimed ep1 (running 0x08000000 .decode))) (fun t => !t.ready && t.owner == some 0) = true := by
  decide +kernel
theorem test_stopAll :
    frameSent .stopAll (machine ep1 (running 0x10000000 .decode)) = 0x01 :: List.replicate 15 0xFF := by decide +kernel
theorem test_resetEncoders :
    frameSent .resetEncoders (machine ep1 (running 0x28000000 .decode)) = 0x06 :: List.replicate 15 0xFF := by
  decide +kernel
theorem test_readSensors :
    frameSent .readSensors (machine ep1 (running 0x30000000 .decode)) = 0x05 :: List.replicate 15 0xFF := by
  decide +kernel
theorem test_readSensors_commit :
    next (execReadSensors
        { claimed ep1 (latchedIn .commit { op := .readSensors, kind := .sensorRead }) with rx := s1, now := 77 })
      (fun t => t.snap == s1 && t.snapTime == 77 && t.ready && t.owner == none && statusWord t.me == 0
        && ctxRead t.me 0x20 == 0x1E000001 && ctxRead t.me 0x24 == 0x7F052832 && ctxRead t.me 0x28 == 0x10000090
        && ctxRead t.me 0x2C == 0x00F0FFFF) = true := by decide +kernel
theorem test_setAllLeds :
    frameSent (.setAllLeds 1 99 20) { machine ep1 (running 0x18016314 .decode) with beakR := 100 }
      = [0x02, 0xFF, 0, 0, 0x03, 0xFC, 0x33, 0x03, 0xFC, 0x33, 0x03, 0xFC, 0x33, 0x03, 0xFC, 0x33] := by
  decide +kernel
theorem test_setSingleLed :
    frameSent (.setSingleLed 7 200 20 30) (machine ep1 (running 0x27C8141E .decode))
      = [0x04, 0x04, 0xFF, 0x33, 0x4D] ++ List.replicate 11 0 := by decide +kernel
theorem test_setSingleLed_commit :
    next (execSetSingleLed 0 100 0 0
        (claimed ep1 (latchedIn .commit { op := .setSingleLed 0 100 0 0, port := 0, red := 100 })))
      (fun t => beakWord t == 0x00000064 && t.snapTime == 0) = true := by decide +kernel
theorem test_move :
    frameSent (.move false 50 10) (machine ep1 (running 0x3832000A .decode))
      = [0x03, 0xCB, 0, 0x01, 0xF2, 0xCB, 0, 0x01, 0xF2] ++ List.replicate 7 0xFF := by decide +kernel
theorem test_move_saturated :
    frameSent (.move false 100 65535) (machine ep2 (running 0x3864FFFF .decode))
      = [0x03, 0x99, 0xFF, 0xFF, 0xFF, 0x99, 0xFF, 0xFF, 0xFF] ++ List.replicate 7 0xFF := by decide +kernel
theorem test_turn :
    frameSent (.turn true 50 90) (machine ep1 (running 0x4432005A .decode))
      = [0x03, 0x4B, 0, 0x01, 0x7F, 0xCB, 0, 0x01, 0x7F] ++ List.replicate 7 0xFF := by decide +kernel
theorem test_turn_zero_ticks :
    result (execTurn false 50 1 (machine ep2 (running 0x40320001 .decode))) .noxfer 0 = true := by decide +kernel
theorem test_setWheels :
    frameSent (.setWheels (-50) 100) (machine ep1 (running 0x4800CE64 .decode))
      = [0x03, 0x4B, 0, 0, 0, 0xFF, 0, 0, 0] ++ List.replicate 7 0xFF := by decide +kernel
theorem test_setWheels_positive_zero :
    frameSent (.setWheels 1 (-1)) (machine ep2 (running 0x480001FF .decode))
      = [0x03, 0x80, 0, 0, 0, 0x00, 0, 0, 0] ++ List.replicate 7 0xFF := by decide +kernel
theorem test_xferRaw :
    frameSent (.xferRaw 3 0xEE)
        (machine ep1 { running 0x500003EE .decode with txbuf := #v[0xA1, 0xB2, 0xC3, 1, 1, 1, 1, 1, 1, 1, 1, 1, 1, 1, 1, 1] })
      = [0xA1, 0xB2, 0xC3] ++ List.replicate 13 0xEE := by decide +kernel
theorem test_xferRaw_rejected :
    next (execXferRaw 17 0 (machine ep1 (running 0x50001100 .decode))) (fun t => statusWord t.me == 0x20) = true := by
  decide +kernel
theorem test_refresh_fresh :
    result (execRefresh 10 { machine ep1 (latchedIn .age { op := .refresh 10, kind := .sensorRead, maxAge := 10 }) with
      snapTime := 100, now := 105 }) .noxfer 0 = true := by decide +kernel
theorem test_refresh_stale :
    next (execRefresh 0 { machine ep1 (latchedIn .age { op := .refresh 0, kind := .sensorRead, maxAge := 0 }) with
      snapTime := 100, now := 101 }) (fun t => t.me.phase == .poll) = true := by decide +kernel
theorem test_getDistance : result (execGetDistance (aged ep1 .getDistance 0 s1 0)) .ok 30 = true := by decide +kernel
theorem test_getDistance_wrapped_age :
    next (execGetDistance { aged ep1 .getDistance 0 s1 0 with snapTime := 0xFFFFFFF0, now := 4 })
      (fun t => t.me.phase == .poll) = true := by decide +kernel
theorem test_getLight_right :
    result (execGetLight 7 (aged ep1 (.getLight 7) 1 (s1.set 5 0x32) 100)) .ok 28 = true := by decide +kernel
theorem test_getLight_clamped :
    result (execGetLight 0 (aged ep1 (.getLight 0) 0 (s1.set 4 0x96) 0)) .ok 100 = true := by decide +kernel
theorem test_getLine : result (execGetLine 0 (aged ep1 (.getLine 0) 0 (s1.set 6 0x85) 0)) .ok 96 = true := by
  decide +kernel
theorem test_getLine_offset : result (execGetLine 0 (aged ep2 (.getLine 0) 0 (s1.set 6 0x7F) 0)) .ok 10 = true := by
  decide +kernel
theorem test_getBattery_tie : result (execGetBattery (aged ep1 .getBattery 0 (s1.set 8 0x01) 0)) .ok 18 = true := by
  decide +kernel
theorem test_getBattery_negative :
    result (execGetBattery (aged ep2 .getBattery 0 (s1.set 8 0x00) 0)) .ok (-10) = true := by decide +kernel
theorem test_getEncoder_negative :
    result (execGetEncoder 1 (aged ep1 (.getEncoder 1) 1 s1 0)) .ok (-2) = true := by decide +kernel
theorem test_getEncoder_tie :
    result (execGetEncoder 0 (aged ep2 (.getEncoder 0) 0 (((s1.set 9 0xFF).set 10 0xFE).set 11 0x74) 0)) .ok 0
      = true := by decide +kernel
theorem test_getPosflag : result (execGetPosflag (aged ep1 .getPosflag 0 (s1.set 7 0xFF) 0)) .ok 1 = true := by
  decide +kernel
theorem test_getAccel :
    result (execGetAccel 5 (posed ep1 (imu 0 (-32768) (-32768) 0 0 0))) .ok (-46164) = true := by decide +kernel
theorem test_getMagnet :
    result (execGetMagnet 2 (posed ep1 (imu 0 0 0 0 1000 0))) .ok (-643) = true := by decide +kernel
theorem test_getCompass_tilted :
    result (execGetCompass (posed ep1 (imu 0 (-200) (-900) 100 300 (-100)))) .ok 20 = true := by decide +kernel
theorem test_getCompass_quarter :
    result (execGetCompass (posed ep2 (imu 0 0 (-1000) (-400) 0 0))) .ok 270 = true := by decide +kernel
theorem test_getOrient_strict :
    result (execGetOrient 0 (posed ep1 (imu 0 (-613) 514 0 0 0))) .ok 0 = true := by decide +kernel
theorem test_getOrient_level :
    result (execGetOrient 4 (posed ep1 (imu 0 (-643) (-766) 0 0 0))) .ok 1 = true := by decide +kernel

/-! The exact headings of 8.2, pitch and roll at their degenerate and ±90° inputs among them. -/

theorem test_headings :
    [compassHeading (0, 0, -1000) (300, 300, -200), compassHeading (0, 0, -1000) (-1, 150, 0),
     compassHeading (0, 0, -1000) (1, 150, 0), compassHeading (0, 0, -1000) (0, -400, 0),
     compassHeading (0, 0, 1000) (0, 400, 0), compassHeading (0, -1000, 0) (0, 0, -400),
     compassHeading (300, 500, 500) (0, 0, 400)]
      = [some 45, some 0, some 0, some 180, some 0, some 0, some 45] := by decide +kernel
theorem test_headings_degenerate :
    [compassHeading (0, 500, 500) (0, 0, 400), compassHeading (0, 0, 0) (1, 2, 3),
     compassHeading (0, 766, 643) (0, 0, 0), compassHeading (0, 0, -1000) (0, 0, 400)]
      = [none, none, none, none] := by decide +kernel

/-! ### The window, the arbiter and reset (95_test_vectors.md 7 and 9) -/

theorem test_gstatus_in_transaction :
    gstatusWord { machine ep1 Ctx.reset with ready := false, owner := some 1, xfer := true } = 0x0000001E := by
  decide +kernel
theorem test_cmd_while_busy :
    next (step (before (.host (.write 0x100 0xF 0)) (machine ep1 (running 0x10000000 .poll))))
      (fun t => regRead t 0x104 == 0x03 && regRead t 0x100 == 0x10000000) = true := by decide +kernel
theorem test_status_write_one_clears :
    next (step (before (.host (.write 0x104 0xF 2)) (machine ep1 { Ctx.reset with ovr := true })))
      (fun t => regRead t 0x104 == 0x00) = true := by decide +kernel
theorem test_getter_timeout_before_init :
    result (execGetLine 0 { machine ep1 { latchedIn .poll { op := .getLine 0, kind := .sensorRead } with polls := 2 }
      with ready := false, initDone := false }) .dropped 100 = true := by decide +kernel
theorem test_reset_gconfig : regRead (State.atReset ep1) 0x008 = 0x00000002 := by decide +kernel
theorem test_withFetchWord :
    next (step (State.reset.withFetchWord 32 0x08000000)) (fun t => t.ready && t.initDone && !t.me.busy) = true := by
  decide +kernel

/-! ### States that meet the invariant -/

/-- The invariant of a machine of two contexts of which context 1 is at reset. -/
theorem inv_two {s : State} {c : Ctx} (hc : s.ctxs = [c, Ctx.reset]) (hn : s.cfg.nCtx = 2) (hi : s.initDone = true)
    (hr : s.ready = !c.phase.claimed) (ho : s.owner = if c.phase.claimed then some 0 else none)
    (hx : s.xfer = true → c.phase = .xfer) (hcs : s.csN = !s.xfer) (hsl : s.xfer = false → s.slot = 0)
    (hsc : s.sclk = s.cfg.spiCpol) (h0 : CtxInv s.cfg c) (h1 : CtxInv s.cfg Ctx.reset) (hrst : s.rstN = true) : Inv s := by
  have ctx0 : s.ctx 0 = c := by simp [State.ctx, hc]
  have ctx1 : ∀ k, k ≠ 0 → s.ctx k = Ctx.reset := by
    intro k hk
    match k with
    | 0 => exact absurd rfl hk
    | 1 => simp [State.ctx, hc]
    | k + 2 => simp [State.ctx, hc]
  refine ⟨by simp [hc, hn], by simp [hi], fun _ => ?_, fun k hk => ?_, fun k hk => ?_, fun hx' => ?_, hcs, hsl, hsc, ?_,
    by simp [hrst]⟩
  · rw [hr, ho]
    cases c.phase.claimed <;> simp
  · rw [ho] at hk
    split at hk
    · cases hk; rw [ctx0]; assumption
    · cases hk
  · by_cases h : k = 0
    · subst h; rw [ctx0] at hk; simp [ho, hk]
    · rw [ctx1 k h] at hk; cases hk
  · have hp := hx hx'
    exact ⟨0, by simp [ho, hp, Phase.claimed], by rw [ctx0]; exact hp⟩
  · intro d hd
    rw [hc] at hd
    simp only [List.mem_cons, List.not_mem_nil, or_false] at hd
    rcases hd with rfl | rfl <;> assumption

theorem ctxInv_reset : CtxInv ep1 Ctx.reset := ⟨by decide, by decide, by decide, by decide⟩

/-- LAT of a READ_SENSORS, of a beak SET_SINGLE_LED, and of a MOVE. -/
def latRead : Latch := { op := .readSensors, kind := .sensorRead }
def latBeak : Latch := { op := .setSingleLed 0 100 0 0, port := 0, red := 100 }
def latMove : Latch := { op := .move false 50 10, velL := 0xCB, velR := 0xCB, ticks := 498 }

theorem inv_idle : Inv (machine ep1 Ctx.reset) :=
  inv_two rfl rfl rfl rfl rfl (by decide) rfl (fun _ => rfl) rfl ctxInv_reset ctxInv_reset rfl

theorem inv_decode (w : Word) : Inv (machine ep1 (running w .decode)) :=
  inv_two rfl rfl rfl rfl rfl (by simp [machine, State.atReset]) rfl (fun _ => rfl) rfl
    ⟨by simp [running], by show (0 : Nat) < 3; decide, by simp [running, Phase.latched], by simp [running, Ctx.reset]⟩ ctxInv_reset rfl

theorem inv_poll (l : Latch) (h : l.op.opClass ≠ .localOp) : Inv (machine ep1 (latchedIn .poll l)) :=
  inv_two rfl rfl rfl rfl rfl (by simp [machine, State.atReset]) rfl (fun _ => rfl) rfl
    ⟨by simp [latchedIn, running], by show (0 : Nat) < 3; decide,
      fun _ => ⟨l, rfl, by simpa [Phase.fits, latchedIn, running] using h⟩, by simp [latchedIn, running, Ctx.reset]⟩ ctxInv_reset rfl

theorem inv_xfer (l : Latch) (h : l.op.opClass ≠ .localOp) : Inv (claimed ep1 (latchedIn .xfer l)) :=
  inv_two rfl rfl rfl rfl rfl (by simp [claimed, machine, State.atReset]) rfl (fun _ => rfl) rfl
    ⟨by simp [latchedIn, running], by show (0 : Nat) < 3; decide,
      fun _ => ⟨l, rfl, by simpa [Phase.fits, latchedIn, running] using h⟩, by simp [latchedIn, running, Ctx.reset]⟩ ctxInv_reset rfl

theorem inv_commit (l : Latch) (h : l.op.opClass ≠ .localOp) : Inv (claimed ep1 (latchedIn .commit l)) :=
  inv_two rfl rfl rfl rfl rfl (by simp [claimed, machine, State.atReset]) rfl (fun _ => rfl) rfl
    ⟨by simp [latchedIn, running], by show (0 : Nat) < 3; decide,
      fun _ => ⟨l, rfl, by simpa [Phase.fits, latchedIn, running] using h⟩, by simp [latchedIn, running, Ctx.reset]⟩ ctxInv_reset rfl

/-- The invariant does not read the script. -/
theorem inv_before {s : State} (a : Act) (h : Inv s) : Inv (before a s) :=
  ⟨h.1, h.2, h.3, h.4, h.5, h.6, h.7, h.8, h.9, h.10, h.11⟩

/-! ### Witnesses: for each obligation with hypotheses, states and operands that meet them -/

theorem witness_DecodeOfEncode : (Instr.move true (-128) 65535).wellFormed = true := by decide
theorem witness_DecodeReadsOperandBits :
    decode 0x3832000A = .ok (.move false 50 10)
      ∧ (0x3B32000A : Word) &&& readBits (.move false 50 10) = 0x3832000A &&& readBits (.move false 50 10) := by
  decide +kernel

/-- Context 0 in its decode step of this word, about to step. -/
def decoding (w : Word) : State := before (.ctx 0) (machine ep1 (running w .decode))

/-- Context 0 in this phase of a READ_SENSORS, about to step. -/
def stepping (p : Phase) : State := before (.ctx 0) (claimed ep1 (latchedIn p latRead))

theorem witness_ReservedOpFinishesIllegal_first :
    CtxSteps (decoding 0x60000000) 0 ∧ ((decoding 0x60000000).ctx 0).phase = .decode
      ∧ field ((decoding 0x60000000).ctx 0).cmd 27 5 ∈ reservedOps := by unfold CtxSteps; decide +kernel
theorem witness_ReservedOpFinishesIllegal_last :
    CtxSteps (decoding 0xF8000000) 0 ∧ ((decoding 0xF8000000).ctx 0).phase = .decode
      ∧ field ((decoding 0xF8000000).ctx 0).cmd 27 5 ∈ reservedOps := by unfold CtxSteps; decide +kernel
theorem witness_ReservedOpFinishesIllegal_none :
    CtxSteps (decoding 0xD8000000) 0 ∧ ((decoding 0xD8000000).ctx 0).phase = .decode
      ∧ field ((decoding 0xD8000000).ctx 0).cmd 27 5 ∉ reservedOps := by unfold CtxSteps; decide +kernel
theorem witness_StepRunsDecodedOp :
    CtxSteps (decoding 0x08000000) 0 ∧ ((decoding 0x08000000).ctx 0).phase = .decode
      ∧ decode ((decoding 0x08000000).ctx 0).cmd = .ok .init := by unfold CtxSteps; decide +kernel
theorem witness_StepRunsDecodedOp_script : ∃ e rest, (decoding 0x08000000).script = e :: rest := ⟨_, _, rfl⟩
theorem witness_StepRunsLatchedOp_runs :
    CtxSteps (stepping .xfer) 0 ∧ ((stepping .xfer).ctx 0).phase.latched = true
      ∧ ((stepping .xfer).ctx 0).lat = some latRead := by unfold CtxSteps; decide +kernel
theorem witness_StepRunsLatchedOp_poll_due :
    CtxSteps (stepping .poll) 0 ∧ ((stepping .poll).ctx 0).lat = some latRead
      ∧ ((stepping .poll).ctx 0).phase = .poll ∧ (atStep (stepping .poll) 0).me.wait = 0 := by
  unfold CtxSteps; decide +kernel

/-- Context 0 waiting for a poll that is not due. -/
def waiting : State := before (.ctx 0) (machine ep1 { latchedIn .poll latRead with polls := 1, wait := 10 })

theorem witness_StepRunsLatchedOp_waits :
    CtxSteps waiting 0 ∧ (waiting.ctx 0).phase = .poll ∧ (atStep waiting 0).me.wait ≠ 0 := by
  unfold CtxSteps; decide +kernel
theorem witness_StepRunsLatchedOp_idle :
    CtxSteps (before (.ctx 1) (machine ep1 Ctx.reset)) 1
      ∧ ((before (.ctx 1) (machine ep1 Ctx.reset)).ctx 1).phase = .idle := by unfold CtxSteps; decide +kernel
theorem witness_LaterStepsReadOnlyLatch : (stepping .commit).me.phase.latched = true := by decide +kernel

/-! The window. -/

/-- The host writes w at offset off of context k next, context 0 being this one. -/
def writing (c : Ctx) (k off : Nat) (w : Word) : State :=
  before (.host (.write (ctxAddr k off) 0xF w)) (machine ep1 c)

theorem witness_CmdWriteStartsOp_accept :
    (writing Ctx.reset 1 0 0x10000000).rstN = true ∧ (writing Ctx.reset 1 0 0x10000000).ctxs.length ≤ 16
      ∧ 1 < (writing Ctx.reset 1 0 0x10000000).ctxs.length
      ∧ HostWrites (writing Ctx.reset 1 0 0x10000000) (ctxAddr 1 0x00) 0x10000000
      ∧ ((writing Ctx.reset 1 0 0x10000000).ctx 1).busy = false := by unfold HostWrites; decide +kernel
theorem witness_CmdWriteStartsOp_busy :
    HostWrites (writing (running 0 .poll) 0 0 0x08000000) (ctxAddr 0 0x00) 0x08000000
      ∧ ((writing (running 0 .poll) 0 0 0x08000000).ctx 0).busy = true := by unfold HostWrites; decide +kernel
theorem witness_CmdWriteStartsOp_beyond :
    (writing Ctx.reset 2 0 0x08000000).ctxs.length ≤ 2 ∧ 0x140 + 0x40 * 2 ≤ 0x1000
      ∧ HostWrites (writing Ctx.reset 2 0 0x08000000) (ctxAddr 2 0x00) 0x08000000 := by
  unfold HostWrites; decide +kernel
theorem witness_CmdWriteStartsOp_starts :
    ((writing Ctx.reset 1 0 0).ctx 1).phase = .idle
      ∧ next (step (writing Ctx.reset 1 0 0)) (fun t => decide ((t.ctx 1).phase ≠ .idle)) = true := by decide +kernel
theorem witness_StatusWriteClearsOvr :
    HostWrites (writing { Ctx.reset with ovr := true } 0 4 0x00000002) (ctxAddr 0 0x04) 0x00000002
      ∧ (0x00000002 : Word).getLsbD 1 = true ∧ (0xFFFFFFFD : Word).getLsbD 1 = false := by
  unfold HostWrites; decide +kernel
theorem witness_StatusWriteClearsOvr_other_bits :
    HostWrites (writing { Ctx.reset with ovr := true } 1 4 0xFFFFFFFD) (ctxAddr 1 0x04) 0xFFFFFFFD := by
  unfold HostWrites; decide +kernel
theorem witness_TxbufWriteStoresBytes :
    HostWrites (writing (running 0 .xfer) 0 0x1C 0x04030201) (ctxAddr 0 (0x10 + 4 * (3 : Fin 4).val)) 0x04030201
      ∧ (writing (running 0 .xfer) 0 0x1C 0x04030201).rstN = true
      ∧ (writing (running 0 .xfer) 0 0x1C 0x04030201).ctxs.length ≤ 16 := by unfold HostWrites; decide +kernel

/-- The host reads this address next. -/
def reading (a : BitVec 12) : State := before (.host (.read a 0xF)) (machine ep1 (running 0x10000000 .poll))

theorem witness_ReadsReturnRegisters :
    (reading 0x104).rstN = true ∧ (0x104 : BitVec 12).toNat % 4 = 0 ∧ HostReads (reading 0x104) 0x104 := by
  unfold HostReads; decide +kernel
theorem witness_ReadsReturnRegisters_last :
    (reading 0xFFC).rstN = true ∧ (0xFFC : BitVec 12).toNat % 4 = 0 ∧ HostReads (reading 0xFFC) 0xFFC := by
  unfold HostReads; decide +kernel

theorem not_mapped (a : Nat) (h : a ≠ 0x000 ∧ a ≠ 0x004 ∧ a ≠ 0x008 ∧ (a < 0x100 ∨ 0x180 ≤ a)) : ¬ Mapped 2 a := by
  rintro (h' | h' | h' | ⟨k, off, hk, ho, h'⟩)
  iterate 3 omega
  simp only [ctxOffsets, List.mem_cons, List.not_mem_nil, or_false] at ho
  omega

theorem not_writable (a : Nat) (h : a < 0x100 ∨ 0x180 ≤ a ∨ a = 0x108) : ¬ Writable 2 a := by
  rintro ⟨k, off, hk, ho, h'⟩
  simp only [List.mem_cons, List.not_mem_nil, or_false] at ho
  omega

theorem witness_UnmappedAndReservedReadZero_hole :
    ¬ Mapped (reading 0x00C).ctxs.length (0x00C : BitVec 12).toNat ∧ HostReads (reading 0x00C) 0x00C :=
  ⟨not_mapped _ (by decide), rfl⟩
theorem witness_UnmappedAndReservedReadZero_beyond :
    ¬ Mapped (reading 0x180).ctxs.length (0x180 : BitVec 12).toNat ∧ HostReads (reading 0x180) 0x180 :=
  ⟨not_mapped _ (by decide), rfl⟩
theorem witness_UnmappedAndReservedReadZero_readOnly :
    ¬ Writable (writing Ctx.reset 0 8 1).ctxs.length (ctxAddr 0 8).toNat
      ∧ HostWrites (writing Ctx.reset 0 8 1) (ctxAddr 0 8) 1 :=
  ⟨not_writable _ (by decide), rfl⟩
theorem witness_UnmappedAndReservedReadZero_reserved :
    HostReads (reading 0x000) 0x000 ∧ HostReads (reading 0x004) 0x004 ∧ HostReads (reading 0x008) 0x008
      ∧ HostReads (reading (ctxAddr 1 4)) (ctxAddr 1 0x04)
      ∧ next (step (reading (ctxAddr 1 4))) (fun _ => true) = true := by unfold HostReads; decide +kernel
theorem witness_UnmappedAndReservedReadZero_ignored :
    HostWrites (writing Ctx.reset 0 4 0xFFFFFFFF) (ctxAddr 0 0x04) 0xFFFFFFFF
      ∧ HostWrites (writing Ctx.reset 0 4 0x00000002) (ctxAddr 0 0x04) 0x00000002
      ∧ observed (writing Ctx.reset 0 4 0x00000002) = observed (writing Ctx.reset 0 4 0xFFFFFFFF)
      ∧ (0x00000002 : Word).getLsbD 1 = (0xFFFFFFFF : Word).getLsbD 1 := ⟨rfl, rfl, rfl, by decide⟩
theorem witness_BadAccessFaults_misaligned :
    (nextEvent (reading 0x101)).act = .host (.read 0x101 0xF) ∧ ¬ Allowed (.read 0x101 0xF) := by
  unfold Allowed; decide +kernel
theorem witness_BadAccessFaults_enables :
    (nextEvent (before (.host (.write 0x100 0x7 0)) (machine ep1 Ctx.reset))).act = .host (.write 0x100 0x7 0)
      ∧ ¬ Allowed (.write 0x100 0x7 0) := by unfold Allowed; decide +kernel
theorem witness_BadAccessFaults_allowed :
    (nextEvent (reading 0xFFC)).act = .host (.read 0xFFC 0xF) ∧ Allowed (.read 0xFFC 0xF) := by
  unfold Allowed; decide +kernel

/-! Reset and the invariant. -/

/-- A reset that arrives in a transaction. -/
def resetting : State := before (.rst false) { claimed ep1 (latchedIn .xfer latRead) with xfer := true, csN := false, slot := 3 }

theorem witness_ResetLeavesStatedValues : ResetNext resetting := rfl

/-- A machine held in reset, with this agent next. -/
def held (a : Act) : State := before a { State.atReset ep1 with rstN := false }

theorem held_atReset (a : Act) : AtResetValues (held a) := by
  unfold AtResetValues CtxAtReset
  refine ⟨rfl, rfl, rfl, rfl, rfl, rfl, rfl, rfl, rfl, rfl, ?_, rfl, rfl⟩
  intro c hc
  have : c = Ctx.reset := by simpa [held, before, State.atReset, ep1] using hc
  subst this
  decide

theorem witness_ResetPinHolds (a : Act) : (held a).rstN = false ∧ AtResetValues (held a) := ⟨rfl, held_atReset a⟩
theorem witness_ResetPinHolds_read : HostReads (held (.host (.read 0x100 0xF))) 0x100 := rfl
theorem witness_ResetPinHolds_write : HostWrites (held (.host (.write 0x100 0xF 0))) 0x100 0 := rfl
theorem witness_ResetPinHolds_ctx : (nextEvent (held (.ctx 1))).act = .ctx 1 := rfl
theorem witness_ResetPinHolds_release : (nextEvent (held (.rst true))).act = .rst true := rfl

/-- That a step answers a next state. -/
theorem next_exists {r : StepResult} (h : next r (fun _ => true) = true) : ∃ t, r = .next t := by
  cases r with
  | next t => exact ⟨t, rfl⟩
  | fault f => cases h
  | refused f => cases h

theorem witness_InvPreserved : Inv (stepping .xfer) ∧ ∃ t, step (stepping .xfer) = .next t :=
  ⟨inv_before _ (inv_xfer _ (by decide)), next_exists (by decide +kernel)⟩
theorem witness_OnlyBadAccessStops_runs : Inv (stepping .commit) := inv_before _ (inv_commit _ (by decide))
theorem witness_OnlyBadAccessStops_stops :
    Inv (before (.host (.read 0x102 0xF)) (machine ep1 Ctx.reset)) ∧ ¬ Allowed (.read 0x102 0xF) :=
  ⟨inv_before _ inv_idle, by unfold Allowed; decide⟩
theorem witness_ClaimHeldUntilRelease_held :
    Inv (stepping .xfer) ∧ (stepping .xfer).owner = some 0 ∧ (∃ t, step (stepping .xfer) = .next t)
      ∧ ((stepping .xfer).ctx 0).phase.claimed = true :=
  ⟨inv_before _ (inv_xfer _ (by decide)), rfl, next_exists (by decide +kernel), rfl⟩
theorem witness_ClaimHeldUntilRelease_taken :
    Inv (before (.ctx 0) (machine ep1 (latchedIn .poll latRead)))
      ∧ next (step (before (.ctx 0) (machine ep1 (latchedIn .poll latRead)))) (fun t => t.owner == some 0) = true :=
  ⟨inv_before _ (inv_poll _ (by decide)), by decide +kernel⟩
theorem witness_ClaimHeldUntilRelease_starts :
    Inv (stepping .xfer) ∧ (stepping .xfer).xfer = false
      ∧ next (step (stepping .xfer)) (fun t => t.xfer) = true :=
  ⟨inv_before _ (inv_xfer _ (by decide)), rfl, by decide +kernel⟩
theorem witness_ReadyHasThreeWriters :
    next (step (stepping .commit)) (fun t => t.ready != (stepping .commit).ready) = true := by decide +kernel
theorem witness_ReadyHasThreeWriters_inv : Inv (machine ep1 Ctx.reset) := inv_idle
theorem witness_OpsFinishInBoundedSteps :
    Inv (decoding 0x30000000) ∧ CtxSteps (decoding 0x30000000) 0 ∧ Due (atStep (decoding 0x30000000) 0) 0
      ∧ stepsLeft (decoding 0x30000000) 0 ≠ 0 ∧ ∃ t, step (decoding 0x30000000) = .next t :=
  ⟨inv_before _ (inv_decode _), by unfold CtxSteps; decide +kernel, by unfold Due; decide +kernel, by decide +kernel,
    next_exists (by decide +kernel)⟩

/-! The arbiter and the transport. -/

theorem witness_PollClaimsOrCounts_claims :
    isBus .readSensors ∧ Standing (machine ep1 (latchedIn .poll latRead)) .poll
      ∧ (machine ep1 (latchedIn .poll latRead)).me.lat = some latRead
      ∧ (machine ep1 (latchedIn .poll latRead)).ready = true := by unfold isBus Standing; decide +kernel
theorem witness_PollClaimsOrCounts_counts :
    isBus .readSensors ∧ Standing (claimed ep1 (latchedIn .poll latRead)) .poll
      ∧ (claimed ep1 (latchedIn .poll latRead)).me.lat = some latRead
      ∧ (claimed ep1 (latchedIn .poll latRead)).ready = false
      ∧ (claimed ep1 (latchedIn .poll latRead)).me.polls + 1 ≠ (claimed ep1 (latchedIn .poll latRead)).cfg.acqMax := by
  unfold isBus Standing; decide +kernel

/-- The last poll of an acquire, on a busy bus. -/
def lastPoll (l : Latch) : State :=
  { machine ep1 { latchedIn .poll l with polls := 2 } with ready := false, owner := some 1 }

theorem witness_TimeoutDropsOp :
    isBus .readSensors ∧ Standing (lastPoll latRead) .poll ∧ (lastPoll latRead).me.lat = some latRead
      ∧ (lastPoll latRead).ready = false ∧ (lastPoll latRead).me.polls + 1 = (lastPoll latRead).cfg.acqMax := by
  unfold isBus Standing; decide +kernel
theorem witness_PollsAreSpaced_counts :
    isBus .readSensors ∧ Standing (claimed ep1 (latchedIn .poll latRead)) .poll
      ∧ (claimed ep1 (latchedIn .poll latRead)).me.lat = some latRead
      ∧ (claimed ep1 (latchedIn .poll latRead)).ready = false
      ∧ (claimed ep1 (latchedIn .poll latRead)).me.polls + 1 ≠ (claimed ep1 (latchedIn .poll latRead)).cfg.acqMax :=
  witness_PollClaimsOrCounts_counts
theorem witness_PollsAreSpaced_waiting :
    (waiting.ctx 0).phase = .poll ∧ 0 < (waiting.ctx 0).polls ∧ CtxSteps waiting 0
      ∧ ((observed waiting).ctx 0).wait ≠ 0 := by unfold CtxSteps; decide +kernel
theorem witness_PlainOpDecodes_stops :
    (Instr.turn false 50 1).opClass = .plainBus ∧ Standing (machine ep2 (running 0x40320001 .decode)) .decode := by
  unfold Standing; decide +kernel
theorem witness_PlainOpDecodes_goes_on :
    (Instr.setSingleLed 0 100 0 0).opClass = .plainBus ∧ Standing (machine ep1 (running 0x20640000 .decode)) .decode
      ∧ decodeCheck (.setSingleLed 0 100 0 0) ep1 = none ∧ isBeakOp (.setSingleLed 0 100 0 0) = true := by
  unfold Standing; decide +kernel

/-- The rational tick counts the decode checks test. -/
theorem ticksOf_zero : ticksOf 1 ep2.kTpd = 0 := by
  have h : uq16 ep2.kTpd = 1 / 4 := by rw [uq16, show ep2.kTpd.toNat = 16384 from rfl]; norm_num
  rw [ticksOf, h, rnd]
  norm_num

theorem ticksOf_tie : ticksOf 10 ep1.kTpc = 498 := by
  have h : uq16 ep1.kTpc = 199 / 4 := by rw [uq16, show ep1.kTpc.toNat = 3260416 from rfl]; norm_num
  rw [ticksOf, h, rnd]
  norm_num

theorem witness_PlainOpDecodes_noxfer : decodeCheck (.turn false 50 1) ep2 = some .noxfer := by
  simp [decodeCheck, ticksOf_zero]
theorem witness_PlainOpDecodes_rejected : decodeCheck (.xferRaw 17 0) ep1 = some .rejected := by decide
theorem witness_PlainOpDecodes_move : decodeCheck (.move false 50 10) ep1 = none := by simp [decodeCheck, ticksOf_tie]
theorem witness_CacheOpDecodes :
    (Instr.refresh 65535).opClass = .cache ∧ (Instr.refresh 65535).wellFormed = true
      ∧ Standing (machine ep1 (running 0x5800FFFF .decode)) .decode := by unfold Standing; decide +kernel
theorem witness_CommitCompletesBusOp :
    isBus .readSensors ∧ Standing (claimed ep1 (latchedIn .commit latRead)) .commit
      ∧ (claimed ep1 (latchedIn .commit latRead)).owner = some (claimed ep1 (latchedIn .commit latRead)).cur
      ∧ (claimed ep1 (latchedIn .commit latRead)).me.lat = some latRead := by unfold isBus Standing; decide +kernel
theorem witness_CommitCompletesBusOp_beak :
    isBus latBeak.op ∧ Standing (claimed ep1 (latchedIn .commit latBeak)) .commit
      ∧ (claimed ep1 (latchedIn .commit latBeak)).me.lat = some latBeak ∧ isSingleLed latBeak.op = true := by
  unfold isBus Standing; decide +kernel
theorem witness_ByteSlotExchangesOneByte_first :
    isBus .readSensors ∧ Standing (claimed ep1 (latchedIn .xfer latRead)) .xfer
      ∧ (claimed ep1 (latchedIn .xfer latRead)).owner = some (claimed ep1 (latchedIn .xfer latRead)).cur
      ∧ (claimed ep1 (latchedIn .xfer latRead)).csN = !(claimed ep1 (latchedIn .xfer latRead)).xfer
      ∧ (claimed ep1 (latchedIn .xfer latRead)).slot = 0 := by unfold isBus Standing; decide +kernel

/-- Byte 15 of a transaction. -/
def lastSlot : State := { claimed ep1 (latchedIn .xfer latRead) with xfer := true, csN := false, slot := 15 }

theorem witness_ByteSlotExchangesOneByte_last :
    Standing lastSlot .xfer ∧ lastSlot.owner = some lastSlot.cur ∧ lastSlot.me.lat = some latRead
      ∧ lastSlot.csN = !lastSlot.xfer ∧ lastSlot.slot = 15 := by unfold Standing; decide +kernel

/-- The inputs of n steps, the device answering 0xA5. -/
def inputs (n : Nat) : List StepInput := List.replicate n { now := 111, pins := pins0 }

theorem witness_TransactionSendsFrame :
    isBus .readSensors ∧ Standing (claimed ep1 (latchedIn .xfer latRead)) .xfer
      ∧ (claimed ep1 (latchedIn .xfer latRead)).xfer = false ∧ (claimed ep1 (latchedIn .xfer latRead)).csN = true
      ∧ (claimed ep1 (latchedIn .xfer latRead)).slot = 0 ∧ (inputs 16).length = 16 := by
  unfold isBus Standing; decide +kernel
theorem witness_TransactionSendsFrame_split : inputs 16 = inputs 15 ++ inputs 1 := by decide +kernel
theorem witness_UncontendedPlainOpRuns :
    (Instr.setSingleLed 0 100 0 0).opClass = .plainBus ∧ decodeCheck (.setSingleLed 0 100 0 0) ep1 = none
      ∧ Standing (machine ep1 (running 0x20640000 .decode)) .decode
      ∧ (machine ep1 (running 0x20640000 .decode)).ready = true ∧ (machine ep1 (running 0x20640000 .decode)).xfer = false
      ∧ (machine ep1 (running 0x20640000 .decode)).csN = true ∧ (machine ep1 (running 0x20640000 .decode)).slot = 0
      ∧ (inputs 19).length = 19 := by unfold Standing; decide +kernel
theorem witness_UncontendedCacheOpRuns :
    Instr.getDistance.opClass = .cache ∧ Instr.getDistance.wellFormed = true
      ∧ Standing (machine ep1 (running 0x80000000 .decode)) .decode
      ∧ (machine ep1 (running 0x80000000 .decode)).ready = true ∧ (inputs 20).length = 20
      ∧ (maxAgeOf .getDistance (machine ep1 (running 0x80000000 .decode)).cfg : Int)
          < ageAt (((inputs 20).drop 1).headD default).now (machine ep1 (running 0x80000000 .decode)) := by
  unfold Standing; decide +kernel

/-! The ops. -/

theorem witness_NopCompletes : Standing (machine ep1 (running 0x00000000 .decode)) .decode := by
  unfold Standing; decide +kernel
theorem witness_InitCompletes_first :
    Standing { machine ep1 (running 0x08000000 .decode) with ready := false, initDone := false } .decode := by
  unfold Standing; decide +kernel
theorem witness_InitCompletes_second :
    Standing (machine ep1 (running 0x08000000 .decode)) .decode
      ∧ (machine ep1 (running 0x08000000 .decode)).initDone = true := by unfold Standing; decide +kernel
theorem witness_RawFrameIsNormalised : Standing (machine ep1 (running 0x50001100 .decode)) .decode ∧ 16 < 17 ∧ 16 ≤ 16 := by
  unfold Standing; decide +kernel
theorem witness_ZeroTickGuard_zero :
    Standing (machine ep2 (running 0x40320001 .decode)) .decode
      ∧ ticksOf 1 (machine ep2 (running 0x40320001 .decode)).cfg.kTpd = 0
      ∧ ticksOf 0 (machine ep2 (running 0x40320001 .decode)).cfg.kTpc = 0 := by
  refine ⟨by unfold Standing; decide +kernel, ticksOf_zero, ?_⟩
  simp only [ticksOf, rnd]
  norm_num
theorem witness_ZeroTickGuard_nonzero :
    Standing (machine ep1 (running 0x3832000A .decode)) .decode
      ∧ ticksOf 10 (machine ep1 (running 0x3832000A .decode)).cfg.kTpc ≠ 0 :=
  ⟨by unfold Standing; decide +kernel, by rw [show (machine ep1 (running 0x3832000A .decode)).cfg = ep1 from rfl, ticksOf_tie]; decide⟩
theorem witness_NoZeroTickFrame_sends :
    TicksNonzero (claimed ep1 (latchedIn .xfer latMove)) ∧ Standing (claimed ep1 (latchedIn .xfer latMove)) .xfer
      ∧ isBounded latMove.op = true ∧ (claimed ep1 (latchedIn .xfer latMove)).xfer = false
      ∧ next (exec latMove.op (claimed ep1 (latchedIn .xfer latMove))) (fun _ => true) = true := by
  refine ⟨?_, by unfold Standing; decide +kernel, rfl, rfl, by decide +kernel⟩
  intro c hc l hp hl _
  have : c = latchedIn .xfer latMove ∨ c = Ctx.reset := by simpa [claimed, machine] using hc
  rcases this with rfl | rfl
  · cases hl; decide
  · cases hp
theorem witness_NoZeroTickFrame_guarded :
    isBounded (.turn false 50 1) = true ∧ decodeCheck (.turn false 50 1) ep2 = some .noxfer
      ∧ Standing (machine ep2 (running 0x40320001 .decode)) .decode :=
  ⟨rfl, witness_PlainOpDecodes_noxfer, by unfold Standing; decide +kernel⟩
theorem witness_ConvertSpeedFormula : (-100 : Int) ≤ -100 ∧ (100 : Int) ≤ 100 := by decide
theorem witness_ConvertSpeedLaws :
    (-100 : Int).natAbs ≤ (100 : Int).natAbs ∧ (0 : Int) < 1 ∧ convertSpeed ep2 1 &&& 0x7F = 0 := by decide +kernel
theorem witness_ConvertSpeedLaws_no_floor : ∃ cfg : Config, cfg.minMag.val = 0 := ⟨{ ep1 with minMag := 0, isLegal := by decide }, rfl⟩
theorem witness_FrameFieldsRecover :
    (99 : Percent) < 100 ∧ 4 ≤ 4 ∧ 3 < 4 ∧ setSingleFrame ep1 4 100 0 0 = setSingleFrame ep1 4 100 0 0
      ∧ setAllFrame ep1 0 0 0 100 50 0 = setAllFrame ep1 0 0 0 100 50 0 :=
  ⟨by decide, by decide, by decide, rfl, rfl⟩
theorem witness_StalenessDecidesTheRead_stale :
    Instr.getBattery.opClass = .cache ∧ Standing { aged ep1 .getBattery 0 s1 0 with now := 111 } .age
      ∧ (maxAgeOf .getBattery ep1 : Int) < ageAt 111 { aged ep1 .getBattery 0 s1 0 with now := 111 } := by
  unfold Standing; decide +kernel
theorem witness_StalenessDecidesTheRead_fresh :
    Standing { aged ep1 .getBattery 0 s1 0 with now := 110 } .age
      ∧ ageAt 110 { aged ep1 .getBattery 0 s1 0 with now := 110 } ≤ (maxAgeOf .getBattery ep1 : Int) := by
  unfold Standing; decide +kernel
theorem witness_RefreshOfFreshSnapshot :
    Standing { machine ep1 (latchedIn .age { op := .refresh 65535, maxAge := 65535 }) with now := 65535 } .age
      ∧ ({ op := .refresh 65535, maxAge := 65535 } : Latch).maxAge.toNat = 65535
      ∧ ageAt 65535 (machine ep1 (latchedIn .age { op := .refresh 65535, maxAge := 65535 })) ≤ (65535 : Int) := by
  unfold Standing; decide +kernel

/-- The age step of a getter of either side is fresh at the end of the window. -/
theorem freshAge_aged (i : Instr) :
    FreshAge i { aged ep1 i (sideOf i).val s1 0 with now := 110 } :=
  ⟨⟨by show (0 : Nat) < 2; decide, rfl⟩, ⟨_, rfl, rfl⟩, by show ((110 : Int) - 100) % 4294967296 ≤ 10; decide⟩

theorem witness_DistanceValue : FreshAge .getDistance { aged ep1 .getDistance 0 s1 0 with now := 110 } := freshAge_aged .getDistance
theorem witness_LightValue : FreshAge (.getLight 7) { aged ep1 (.getLight 7) 1 s1 0 with now := 110 } := freshAge_aged (.getLight 7)
theorem witness_LineValue : FreshAge (.getLine 0) { aged ep1 (.getLine 0) 0 s1 0 with now := 110 } := freshAge_aged (.getLine 0)
theorem witness_BatteryValue : FreshAge .getBattery { aged ep1 .getBattery 0 s1 0 with now := 110 } := freshAge_aged .getBattery
theorem witness_EncoderValue : FreshAge (.getEncoder 1) { aged ep1 (.getEncoder 1) 1 s1 0 with now := 110 } := freshAge_aged (.getEncoder 1)
theorem witness_PosflagValue : FreshAge .getPosflag { aged ep1 .getPosflag 0 s1 0 with now := 110 } := freshAge_aged .getPosflag
theorem witness_AxisReadings : Standing (posed ep1 (imu 0 (-32768) 32767 0 0 0)) .decode := by unfold Standing; decide +kernel
theorem witness_CompassWithinTolerance_degenerate : Standing (posed ep2 (imu 0 0 0 1 2 3)) .decode ∧ 359 < 360 := by
  unfold Standing; decide +kernel

/-- GET_COMPASS level, with the field along +Y: the exact heading is 0. -/
def north : State := posed ep2 (imu 0 0 (-1000) 0 150 0)

theorem accelOf_north : accelOf north = (0, 0, -1000) := by
  have h : rotated (16384 / 16384) (0 / 16384) 0#16 0#16 0xFC18#16 = (0, 0, -1000) := by simp [rotated, rnd]; norm_num
  exact h
theorem magnetOf_north : magnetOf north = (0, 150, 0) := by
  have h : rotated (16384 / 16384) (-(0 / 16384)) 0#16 150#16 0#16 = (0, 150, 0) := by simp [rotated, rnd]; norm_num
  exact h
theorem witness_CompassWithinTolerance_heading :
    Standing north .decode ∧ compassHeading (accelOf north) (magnetOf north) = some 0
      ∧ 359 < 360 ∧ circularDistance 359 0 ≤ Config.compassTol ∧ ¬ circularDistance 2 0 ≤ Config.compassTol := by
  rw [accelOf_north, magnetOf_north]
  unfold Standing; decide +kernel
theorem witness_CompassHeadingIsExact : compassHeading (0, 0, -1000) (-1, 150, 0) = some 0 := by decide +kernel
theorem witness_LevelNorthReadsZero : (-1 : Int) < 0 ∧ (0 : Int) < 1 := by decide
theorem witness_OrientationPoses : Standing (posed ep1 (imu 0 (-614) 515 0 0 0)) .decode := by unfold Standing; decide +kernel

/-! The writers. -/

/-- The commit step of SET_BEAK 100, 0, 0. -/
def beakCommit : State := before (.ctx 0) (claimed ep1 (latchedIn .commit latBeak))

theorem witness_BeakHasOneWriter :
    next (step beakCommit) (fun t => (t.beakR, t.beakG, t.beakB) != (beakCommit.beakR, beakCommit.beakG, beakCommit.beakB))
      = true := by decide +kernel

/-- The commit step of a READ_SENSORS that received S1. -/
def readCommit : State :=
  { claimed ep1 (latchedIn .commit latRead) with
    rx := s1, script := [{ elapsed := 7, pins := pins0, mosi := false, act := .ctx 0 }] }

theorem witness_SnapshotWrittenByCommits :
    next (step readCommit) (fun t => t.snap != readCommit.snap && (t.ctx 0).rxbuf != (readCommit.ctx 0).rxbuf
      && t.snapTime != readCommit.snapTime) = true := by decide +kernel
theorem witness_BusyKeepsResult :
    next (step (decoding 0x30000000)) (fun t => (t.ctx 0).busy) = true := by decide +kernel
theorem witness_BusyKeepsResult_read :
    (reading (ctxAddr 1 8)).rstN = true ∧ (reading (ctxAddr 1 8)).ctxs.length ≤ 16
      ∧ HostReads (reading (ctxAddr 1 8)) (ctxAddr 1 0x08) ∧ HostReads (reading (ctxAddr 0 4)) (ctxAddr 0 0x04)
      ∧ next (step (reading (ctxAddr 1 8))) (fun _ => true) = true := by unfold HostReads; decide +kernel
theorem witness_OpStepFrame :
    next (exec .readSensors (claimed ep1 (latchedIn .commit latRead))) (fun _ => true) = true := by decide +kernel
theorem witness_ParametersNeverChange : ∃ t, step resetting = .next t := next_exists (by decide +kernel)

end Sys2Proof.Tests
end

section
/-! SUPPORT. How a getter ends: the frame of a step that only finishes its op, and the age step of a getter on a fresh
snapshot (R51, R147). -/

namespace Sys2Proof.Proofs

open Sys2Proof Sys2Proof.Machine Sys2Proof.Claims

/-! ### A step that writes only context cur -/

theorem onlyOwnOp_updMe {s : State} (f : Ctx → Ctx) (hc : s.cur < s.ctxs.length) (hcmd : (f s.me).cmd = s.me.cmd)
    (hovr : (f s.me).ovr = s.me.ovr) (htx : (f s.me).txbuf = s.me.txbuf) (hrx : (f s.me).rxbuf = s.me.rxbuf) :
    OnlyOwnOp s (s.updMe f) :=
  ⟨ctxKept_updMe f hc rfl rfl hcmd hovr htx, by rw [me_updMe f hc, hrx], ⟨rfl, rfl, rfl, rfl, rfl⟩,
    ⟨rfl, rfl, rfl⟩, ⟨rfl, rfl, rfl, rfl, rfl, rfl⟩, ⟨rfl, rfl, rfl, rfl, rfl, rfl, rfl, rfl, rfl, rfl⟩⟩

theorem onlyOwnOp_finish {s : State} (code : RCode) (v : Int) (hc : s.cur < s.ctxs.length) :
    OnlyOwnOp s (finish code v s) :=
  onlyOwnOp_updMe _ hc rfl rfl rfl rfl

theorem onlyOwnOp_finish_latch {s : State} (code : RCode) (v : Int) (l : Latch) (hc : s.cur < s.ctxs.length) :
    OnlyOwnOp s (finish code v (latch l s)) := by
  rw [finish, latch, updMe_updMe]
  exact onlyOwnOp_updMe _ hc rfl rfl rfl rfl

/-! ### The staleness test -/

theorem ageAt_eq_toNat (t : Word) (s : State) : ageAt t s = (t - s.snapTime).toNat := by
  have ht := t.isLt
  have hs := s.snapTime.isLt
  rw [ageAt, BitVec.toNat_sub]
  omega

theorem stale_eq_false_iff (t m : Word) (s : State) : stale t m s = false ↔ ageAt t s ≤ (m.toNat : Int) := by
  rw [ageAt_eq_toNat, stale, decide_eq_false_iff_not, not_lt, Nat.cast_le]

/-! ### A getter on a fresh snapshot -/

theorem getterOp_age_fresh {s : State} {l' : Latch} (l : Latch) (eval : Latch → State → Int)
    (hp : s.me.phase = .age) (hl : s.me.lat = some l') (ha : ageAt s.now s ≤ (s.cfg.staleWindow.toNat : Int)) :
    getterOp l eval s = .next (finish .ok (sat32 (eval l' s)) s) := by
  rw [getterOp, cacheOp_age _ _ _ _ _ hp hl, (stale_eq_false_iff _ _ _).mpr ha]
  rfl

/-- A getter whose value is v for its side finishes OK with v, saturated, on a fresh snapshot (R147). -/
theorem finishesWith_of_freshAge {i : Instr} {s : State} {l : Latch} {eval : Latch → State → Int} {v : Int}
    (hi : exec i s = getterOp l eval s) (hv : ∀ l' : Latch, l'.sel = (sideOf i).val → eval l' s = v)
    (hf : FreshAge i s) : FinishesWith i s .ok (saturated v) := by
  obtain ⟨⟨hc, hp⟩, ⟨l', hl, hsel⟩, ha⟩ := hf
  refine ⟨finish .ok (sat32 (eval l' s)) s, by rw [hi, getterOp_age_fresh l eval hp hl ha], ?_,
    onlyOwnOp_finish _ _ hc⟩
  rw [hv l' hsel]
  exact finish_finished _ _ hc

theorem saturated_of_mem {v : Int} (h0 : 0 ≤ v) (h1 : v ≤ 100) : saturated v = v := by
  rw [saturated]
  omega

/-! ### Rounding -/

/-- Rounding a quotient of integers is one integer division (R15). -/
theorem rnd_div (k : Int) {d : Nat} (hd : 0 < d) : rnd ((k : ℚ) / d) = (2 * k + d) / (2 * d) := by
  have hd' : (d : ℚ) ≠ 0 := by positivity
  have h : (k : ℚ) / d + 1 / 2 = ((2 * k + d : Int) : ℚ) / (2 * d : Nat) := by
    push_cast
    field_simp
  rw [rnd, h, Rat.floor_intCast_div_natCast]
  push_cast
  rfl

theorem rnd_div_65536 (k : Int) : rnd ((k : ℚ) / 65536) = rnd16 k := by
  have h := rnd_div k (d := 65536) (by decide)
  push_cast at h
  rw [h, rnd16]
  omega

theorem rnd_div_16384 (k : Int) : rnd ((k : ℚ) / 16384) = rnd14 k := by
  have h := rnd_div k (d := 16384) (by decide)
  push_cast at h
  rw [h, rnd14]
  omega

/-! ### The snapshot's bytes and the light coefficients -/

theorem snapByte_eq (s : State) {i : Nat} (h : i < 16) : snapByte s i = s.snap[i].toNat := by
  simp [snapByte, h]

theorem lightCoeff_eq (cfg : Config) (side : Fin 2) {t : Nat} (h : t < 10) :
    lightCoeff cfg side t = cfg.lc[side][t].toInt := by
  simp [lightCoeff, h, side.isLt]

end Sys2Proof.Proofs
end

section
/-! SUPPORT. The six sensor getters: each value is the spec's over the rationals (R152 to R157). -/

namespace Sys2Proof.Proofs

open Sys2Proof Sys2Proof.Machine Sys2Proof.Claims

/-! ### Two ranges every configuration meets (R9, R10) -/

theorem legal_posFlag_kTpr {p : Params} (h : p.legal = true) :
    (p.posFlagByte = 6 ∨ p.posFlagByte = 7) ∧ p.kTpr ≠ 0 := by
  simp only [Params.legal, Bool.and_eq_true, Bool.or_eq_true, beq_iff_eq, Bool.not_eq_true', beq_eq_false_iff_ne] at h
  obtain ⟨⟨⟨⟨⟨-, hpos⟩, htpr⟩, -⟩, -⟩, -⟩ := h
  exact ⟨hpos, htpr⟩

theorem kTpr_toNat_pos (cfg : Config) : 0 < cfg.kTpr.toNat :=
  Nat.pos_of_ne_zero fun h => (legal_posFlag_kTpr cfg.isLegal).2 (BitVec.eq_of_toNat_eq h)

theorem posFlagByte_eq (cfg : Config) : cfg.posFlagByte.val = 6 ∨ cfg.posFlagByte.val = 7 :=
  (legal_posFlag_kTpr cfg.isLegal).1.imp (congrArg Fin.val) (congrArg Fin.val)

/-! ### Values over the rationals -/

theorem evalDistance_eq (l : Latch) (s : State) :
    evalDistance l s = rnd (((s.snap[2].toNat * 256 + s.snap[3].toNat : Nat) : ℚ) * uq16 s.cfg.kDist) := by
  rw [evalDistance, ← rnd_div_65536, uq16]
  push_cast
  ring_nf

theorem evalBattery_eq (l : Latch) (s : State) :
    evalBattery l s = rnd ((s.snap[8].toNat : ℚ) * uq16 s.cfg.kBat + sq16 s.cfg.kBatOff) := by
  rw [evalBattery, ← rnd_div_65536, uq16, sq16]
  push_cast
  ring_nf

/-- The integer correction is 2^16 times the rational one (R153). -/
theorem lightPoly_eq (cfg : Config) (side : Fin 2) (r g b : Int) :
    lightPoly cfg.lc[side] r g b = (lightCorrection cfg side r g b : ℚ) / 65536 := by
  simp (disch := decide) only [lightCorrection, lightCoeff_eq, lightPoly, sq16]
  push_cast
  ring

/-- Clamping before the division by 2^16 is clamping after it. -/
theorem clamp_div_65536 (k : Int) :
    ((clamp k 0 (100 * 65536) : Int) : ℚ) / 65536 = min (max ((k : ℚ) / 65536) 0) 100 := by
  have hd : (0 : ℚ) ≤ 65536 := by norm_num
  rw [clamp, Int.cast_min, Int.cast_max, ← min_div_div_right hd, ← max_div_div_right hd]
  norm_num

theorem evalLight_eq (side : Fin 2) {l : Latch} (hl : l.sel = side.val) (s : State) :
    evalLight l s = rnd (min (max ((s.snap[4 + side.val].toNat : ℚ)
      - lightPoly s.cfg.lc[side] s.beakR.val s.beakG.val s.beakB.val) 0) 100) := by
  have hk : (s.snap[4 + side.val].toNat : ℚ) - lightPoly s.cfg.lc[side] s.beakR.val s.beakG.val s.beakB.val
      = (((s.snap[4 + side.val].toNat : Int) * 65536
        - lightCorrection s.cfg side s.beakR.val s.beakG.val s.beakB.val : Int) : ℚ) / 65536 := by
    have h := lightPoly_eq s.cfg side s.beakR.val s.beakG.val s.beakB.val
    push_cast at h ⊢
    rw [h]
    ring
  rw [evalLight, hl, snapByte_eq s (by omega), ← rnd_div_65536, clamp_div_65536, hk]

/-- A light value is in 0..100: its argument is, before it is rounded (R153). -/
theorem evalLight_mem (l : Latch) (s : State) : 0 ≤ evalLight l s ∧ evalLight l s ≤ 100 := by
  simp only [evalLight, rnd16, clamp]
  omega

/-- The whiteness percent of R154 is rounded by one integer division. -/
theorem rnd_whiteness (raw : Nat) : rnd ((raw : ℚ) * 100 / 127) = ((raw * 200 + 127) / 254 : Nat) := by
  have h := rnd_div (raw * 100) (d := 127) (by decide)
  push_cast at h ⊢
  rw [h]
  omega

theorem evalLine_eq (side : Fin 2) {l : Latch} (hl : l.sel = side.val) (s : State) :
    evalLine l s = min (max (100 - rnd (((s.snap[6 + side.val].toNat % 128 : Nat) : ℚ) * 100 / 127)
      + s.cfg.lineOffset) 0) 100 := by
  rw [rnd_whiteness, evalLine, hl, snapByte_eq s (by omega), clamp]

/-! ### The encoder's count -/

/-- Three bytes read as one 24-bit two's-complement number (R77). -/
theorem toInt_append_bytes (a b c : Byte) : (a ++ b ++ c).toInt =
    if a.toNat * 65536 + b.toNat * 256 + c.toNat < 8388608
    then ((a.toNat * 65536 + b.toNat * 256 + c.toNat : Nat) : Int)
    else ((a.toNat * 65536 + b.toNat * 256 + c.toNat : Nat) : Int) - 16777216 := by
  have hb := b.isLt
  have hc := c.isLt
  have hu : (a ++ b ++ c).toNat = a.toNat * 65536 + b.toNat * 256 + c.toNat := by
    rw [BitVec.toNat_append, BitVec.toNat_append, ← Nat.shiftLeft_add_eq_or_of_lt hc,
      ← Nat.shiftLeft_add_eq_or_of_lt hb, Nat.shiftLeft_eq, Nat.shiftLeft_eq]
    omega
  rw [BitVec.toInt_eq_toNat_cond, hu]
  split <;> split <;> omega

theorem encoderCount_eq (side : Fin 2) (s : State) :
    encoderCount s (9 + 3 * side.val) = (encoderBits s side).toInt := by
  match side with
  | 0 => simp [encoderCount, encoderBits, snapByte_eq, toInt_append_bytes]
  | 1 => simp [encoderCount, encoderBits, snapByte_eq, toInt_append_bytes]

theorem evalEncoder_eq (side : Fin 2) {l : Latch} (hl : l.sel = side.val) (s : State) :
    evalEncoder l s = rnd (((encoderBits s side).toInt : ℚ) / uq16 s.cfg.kTpr * 10 ^ s.cfg.encDec.val) := by
  have hk := kTpr_toNat_pos s.cfg
  have hk' : (s.cfg.kTpr.toNat : ℚ) ≠ 0 := by positivity
  have h := rnd_div ((encoderBits s side).toInt * 10 ^ s.cfg.encDec.val * 65536) hk
  rw [evalEncoder, hl, encoderCount_eq, ← h, uq16]
  congr 1
  push_cast
  field_simp

/-! ### The position flag -/

theorem getLsbD_seven (b : Byte) : (if b.getLsbD 7 then 1 else 0 : Int) = (b.toNat / 128 : Nat) := by
  have hb := b.isLt
  have hbit : b.getLsbD 7 = decide (b.toNat / 128 = 1) := by
    rw [BitVec.getLsbD, Nat.testBit_eq_decide_div_mod_eq, decide_eq_decide]
    omega
  simp only [hbit, decide_eq_true_eq]
  split <;> omega

end Sys2Proof.Proofs
end

section
/-! SUPPORT. GET_ACCEL and GET_MAGNET: the rotations of R160 round a rational once, and SEL names a component. -/

namespace Sys2Proof.Proofs

open Sys2Proof Sys2Proof.Machine Sys2Proof.Claims

/-- A local op whose work finishes it with the value v finishes so in its decode step (R50, R81). -/
theorem finishesWith_of_localOp {i : Instr} {s : State} (l : Latch) {value : State → Int} {v : Int}
    (hi : exec i s = localOp l (fun u => finish .ok (value u) u) s) (hv : value (latch l s) = v)
    (hs : Standing s .decode) : FinishesWith i s .ok v := by
  obtain ⟨hc, hp⟩ := hs
  refine ⟨finish .ok v (latch l s), by rw [hi, localOp_decode l _ hp, hv], finish_finished _ _ ?_,
    onlyOwnOp_finish_latch _ _ l hc⟩
  rwa [latch_cur, latch_length]

/-- A sum of two products with SQ1.14 constants, rounded once (R15, R17, R160). -/
theorem rnd_sq14_combination (y z : Int) (c t : BitVec 16) :
    rnd ((y : ℚ) * sq14 c + z * sq14 t) = rnd14 (y * c.toInt + z * t.toInt) := by
  rw [← rnd_div_16384, sq14, sq14]
  push_cast
  ring_nf

theorem rnd_sq14_difference (y z : Int) (c t : BitVec 16) :
    rnd ((y : ℚ) * sq14 c - z * sq14 t) = rnd14 (y * c.toInt - z * t.toInt) := by
  simpa [neg_mul, ← sub_eq_add_neg] using rnd_sq14_combination y (-z) c t

theorem rotatedAccel_eq (s : State) : rotatedAccel s.cfg s.pins = accelOf s := by
  simp only [rotatedAccel, rotA, accelOf, rotated, rnd_sq14_combination, rnd_sq14_difference]

/-- rotM is the rotation by the opposite angle (R161). -/
theorem rotatedMagnet_eq (s : State) : rotatedMagnet s.cfg s.pins = magnetOf s := by
  simp only [rotatedMagnet, rotM, magnetOf, rotated, mul_neg, sub_neg_eq_add, neg_add_eq_sub, rnd_sq14_combination,
    rnd_sq14_difference]

theorem axis_clampDim (v : Int × Int × Int) (sel : Nat) : axis v (clampDim sel) = component v sel := by
  match sel with
  | 0 => rfl
  | 1 => rfl
  | n + 2 =>
    have h : clampDim (n + 2) = 2 := Nat.min_eq_right (by omega)
    simp [h, axis, component]

end Sys2Proof.Proofs
end

section
open Sys2Proof Sys2Proof.Machine Sys2Proof.Claims Sys2Proof.Proofs

/-- Settles O41: one integer division rounds the product, and a fresh snapshot ends the op with it. -/
theorem distanceValue : Obligations.DistanceValue := by
  rintro s v rfl
  exact ⟨fun l => evalDistance_eq l s,
    finishesWith_of_freshAge rfl fun l _ => evalDistance_eq l s⟩

/-- Settles O42: the integer correction is 2^16 times the rational one, and clamping commutes with the division. -/
theorem lightValue : Obligations.LightValue := by
  rintro sel s v rfl
  have hv (l : Latch) (hl : l.sel = (sideOf (.getLight sel)).val) := evalLight_eq _ hl s
  obtain ⟨h0, h1⟩ := evalLight_mem { op := .getLight sel, sel := (sideOf (.getLight sel)).val } s
  rw [hv _ rfl] at h0 h1
  refine ⟨hv, h0, h1, fun hf => ?_⟩
  rw [← saturated_of_mem h0 h1]
  exact finishesWith_of_freshAge rfl hv hf

/-- Settles O43: the whiteness percent is one integer division, and the clamp gives the range. -/
theorem lineValue : Obligations.LineValue := by
  intro sel s v hv
  have heval (l : Latch) (hl : l.sel = (sideOf (.getLine sel)).val) : evalLine l s = v :=
    (evalLine_eq _ hl s).trans hv.symm
  have h0 : 0 ≤ v := by omega
  have h1 : v ≤ 100 := by omega
  refine ⟨heval, h0, h1, fun hf => ?_⟩
  rw [← saturated_of_mem h0 h1]
  exact finishesWith_of_freshAge rfl heval hf

/-- Settles O44: one integer division rounds the scaled reading with its offset. -/
theorem batteryValue : Obligations.BatteryValue := by
  rintro s v rfl
  exact ⟨fun l => evalBattery_eq l s, finishesWith_of_freshAge rfl fun l _ => evalBattery_eq l s⟩

/-- Settles O45: the count is the signed 24-bit number, and K_TPR is not 0. -/
theorem encoderValue : Obligations.EncoderValue := by
  rintro sel s v rfl
  have hv (l : Latch) (hl : l.sel = (sideOf (.getEncoder sel)).val) := evalEncoder_eq _ hl s
  exact ⟨hv, finishesWith_of_freshAge rfl hv⟩

/-- Settles O46: the legal parameters have POS_FLAG_BYTE 6 or 7, and a byte divided by 128 is its bit 7. -/
theorem posflagValue : Obligations.PosflagValue := by
  intro s v hv
  have heval (l : Latch) : evalPosflag l s = v := by
    rw [hv, getLsbD_seven]
    rfl
  obtain ⟨h0, h1⟩ : 0 ≤ v ∧ v ≤ 100 := by split at hv <;> omega
  refine ⟨heval, posFlagByte_eq s.cfg, fun hf => ?_⟩
  rw [← saturated_of_mem h0 h1]
  exact finishesWith_of_freshAge rfl (fun l _ => heval l) hf

/-- Settles O49: the op ends in its decode step with the axis of the integer rotation, which rounds the rational one. -/
theorem axisReadings : Obligations.AxisReadings := by
  intro sel s hs
  constructor
  · refine finishesWith_of_localOp { op := .getAccel sel, sel := clampDim sel }
      (value := fun u => axis (rotatedAccel u.cfg u.pins) (clampDim sel)) rfl ?_ hs
    simp only [axis_clampDim, latch_cfg, latch_pins, rotatedAccel_eq]
  · refine finishesWith_of_localOp { op := .getMagnet sel, sel := clampDim sel }
      (value := fun u => axis (rotatedMagnet u.cfg u.pins) (clampDim sel)) rfl ?_ hs
    simp only [axis_clampDim, latch_cfg, latch_pins, rotatedMagnet_eq]

end

section
/-! SUPPORT. Rounding an angle to whole degrees (R165, log 12): the count of quarterDegrees rounds half up and half down
alike, because the cosine of an odd number of degrees is irrational. -/

namespace Sys2Proof.Proofs

open Real Sys2Proof.Machine Sys2Proof.Laws

/-- In lowest terms (2k+1)/180 keeps a factor 4 below the line. -/
theorem den_odd_div_180 (k : ℤ) : 3 < ((2 * k + 1 : ℚ) / 180).den := by
  set r : ℚ := (2 * k + 1 : ℚ) / 180
  have hcross : r.num * 180 = (2 * k + 1) * r.den := by
    have h : (r.num : ℚ) / r.den = (2 * k + 1 : ℚ) / 180 := by rw [Rat.num_div_den]
    rw [div_eq_div_iff (by exact_mod_cast r.den_ne_zero) (by norm_num)] at h
    exact_mod_cast h
  have hpos := r.den_pos
  by_contra hle
  have hcases : r.den = 1 ∨ r.den = 2 ∨ r.den = 3 := by omega
  rcases hcases with h | h | h <;> rw [h] at hcross <;> push_cast at hcross <;> omega

/-- An angle whose double has a rational cosine is never half way between two degrees. -/
theorem degrees_ne_half {p d : ℤ} {t : ℝ} (hd : 0 < d) (hp : (p : ℝ) = d * cos (2 * t)) (k : ℤ) :
    t * 180 / π ≠ k + 1 / 2 := by
  intro h
  have hangle : 2 * t = (((2 * k + 1 : ℚ) / 180 : ℚ) : ℝ) * π := by
    have : t * 180 = (k + 1 / 2) * π := by rw [← h]; field_simp
    push_cast
    linarith
  have hirr := irrational_cos_rat_mul_pi (den_odd_div_180 k)
  rw [← hangle] at hirr
  have hd' : (d : ℝ) ≠ 0 := by exact_mod_cast hd.ne'
  refine hirr ⟨(p : ℚ) / d, ?_⟩
  push_cast
  rw [hp]
  field_simp

/-- quarterDegrees rounds the angle in degrees, both from below and from above. -/
theorem quarterDegrees_rounds {p d : ℤ} {t : ℝ} (hd : 0 < d) (hp : (p : ℝ) = d * cos (2 * t)) (h0 : 0 ≤ t)
    (h1 : t ≤ π / 2) :
    ⌈t * 180 / π - 1 / 2⌉ = (quarterDegrees p d : ℤ) ∧ ⌊t * 180 / π + 1 / 2⌋ = (quarterDegrees p d : ℤ) := by
  have hceil : ⌈t * 180 / π - 1 / 2⌉ = (quarterDegrees p d : ℤ) := by
    rw [quarterDegrees_eq hd hp (by linarith) (by linarith)]
    ring_nf
  refine ⟨hceil, Int.floor_eq_iff.mpr ?_⟩
  have hne := degrees_ne_half hd hp (quarterDegrees p d)
  obtain ⟨hlo, hhi⟩ := Int.ceil_eq_iff.mp hceil
  have hlt := lt_of_le_of_ne (by linarith : t * 180 / π ≤ _) hne
  constructor <;> linarith

theorem chebyshevChanges_le (p d : ℤ) (m : ℕ) (u v : ℤ) (neg : Bool) : chebyshevChanges p d m u v neg ≤ m := by
  induction m generalizing u v neg with
  | zero => exact Nat.le_refl 0
  | succ m ih =>
    have hpos := ih (2 * p * u - d * d * v) u false
    have hneg := ih (2 * p * u - d * d * v) u true
    have hzero := ih (2 * p * u - d * d * v) u neg
    simp only [chebyshevChanges]
    split_ifs <;> omega

theorem quarterDegrees_le (p d : ℤ) : quarterDegrees p d ≤ 90 := chebyshevChanges_le p d 90 p 1 false

end Sys2Proof.Proofs
end

section
/-! SUPPORT. The heading of a level field (R165): headingOf rounds the angle of the point (y, x), quadrant by quadrant. -/

namespace Sys2Proof.Proofs

open Real Sys2Proof.Machine Sys2Proof.Claims

/-- The angle of the point (y, x) in degrees, in [0, 360): H of R165 for a level field (x, y). -/
noncomputable def bearing (x y : ℝ) : ℝ :=
  let a := Complex.arg ⟨y, x⟩ * 180 / π
  if a < 0 then a + 360 else a

theorem realHeading_eq (g b : Int × Int × Int) : realHeading g b = bearing (fieldX g b) (fieldY g b) := rfl

theorem bearing_of_nonneg {x y : ℝ} (hx : 0 ≤ x) : bearing x y = Complex.arg ⟨y, x⟩ * 180 / π := by
  have harg : 0 ≤ Complex.arg ⟨y, x⟩ := Complex.arg_nonneg_iff.mpr hx
  exact if_neg (not_lt.mpr (by positivity))

theorem bearing_of_neg {x y : ℝ} (hx : x < 0) : bearing x y = Complex.arg ⟨y, x⟩ * 180 / π + 360 := by
  have harg : Complex.arg ⟨y, x⟩ < 0 := Complex.arg_neg_iff.mpr hx
  exact if_pos (div_neg_of_neg_of_pos (by linarith) pi_pos)

/-- The double angle's cosine needs no square root. -/
theorem cos_two_mul_arg (x y : ℝ) : y ^ 2 - x ^ 2 = (y ^ 2 + x ^ 2) * cos (2 * Complex.arg ⟨y, x⟩) := by
  have hre := Complex.norm_mul_cos_arg ⟨y, x⟩
  have him := Complex.norm_mul_sin_arg ⟨y, x⟩
  have hone := sin_sq_add_cos_sq (Complex.arg ⟨y, x⟩)
  set θ := Complex.arg ⟨y, x⟩
  set r := ‖(⟨y, x⟩ : ℂ)‖
  dsimp only at hre him
  rw [← hre, ← him, cos_two_mul']
  linear_combination (r ^ 2 * (sin θ ^ 2 - cos θ ^ 2)) * hone

/-! ### The four quadrants -/

/-- Rounding half up a number measured back from an integer is rounding half down the number itself. -/
theorem floor_intCast_sub_add_half (c : ℤ) (z : ℝ) : ⌊(c : ℝ) - z + 1 / 2⌋ = c - ⌈z - 1 / 2⌉ := by
  have h : (c : ℝ) - z + 1 / 2 = c + -(z - 1 / 2) := by ring
  rw [h, Int.floor_intCast_add, Int.floor_neg, ← sub_eq_add_neg]

section
variable {x y : ℝ} {p d : ℤ} (hd : 0 < d) (hp : (p : ℝ) = d * cos (2 * Complex.arg ⟨y, x⟩))
include hd hp

/-- North to east: the bearing is the angle itself. -/
theorem floor_bearing_northEast (hx : 0 ≤ x) (hy : 0 ≤ y) : ⌊bearing x y + 1 / 2⌋ = (quarterDegrees p d : ℤ) := by
  have h0 : 0 ≤ Complex.arg ⟨y, x⟩ := Complex.arg_nonneg_iff.mpr hx
  have h1 : Complex.arg ⟨y, x⟩ ≤ π / 2 := Complex.arg_le_pi_div_two_iff.mpr (.inl hy)
  rw [bearing_of_nonneg hx]
  exact (quarterDegrees_rounds hd hp h0 h1).2

/-- East to south: the angle is measured back from 180 degrees. -/
theorem floor_bearing_southEast (hx : 0 ≤ x) (hy : y < 0) :
    ⌊bearing x y + 1 / 2⌋ = 180 - (quarterDegrees p d : ℤ) := by
  have h0 : π / 2 < Complex.arg ⟨y, x⟩ := not_le.mp fun h =>
    (Complex.arg_le_pi_div_two_iff.mp h).elim (not_le.mpr hy) (not_lt.mpr hx)
  have h1 := Complex.arg_le_pi ⟨y, x⟩
  have hcos : cos (2 * (π - Complex.arg ⟨y, x⟩)) = cos (2 * Complex.arg ⟨y, x⟩) := by
    rw [mul_sub, cos_two_pi_sub]
  have hr := (quarterDegrees_rounds hd (hp.trans (by rw [hcos])) (sub_nonneg.mpr h1) (by linarith)).1
  have hdeg : Complex.arg ⟨y, x⟩ * 180 / π = (180 : ℤ) - (π - Complex.arg ⟨y, x⟩) * 180 / π := by
    push_cast
    field_simp
    ring
  rw [bearing_of_nonneg hx, hdeg, floor_intCast_sub_add_half, hr]

/-- South to west: the angle is measured on from 180 degrees. -/
theorem floor_bearing_southWest (hx : x < 0) (hy : y < 0) :
    ⌊bearing x y + 1 / 2⌋ = 180 + (quarterDegrees p d : ℤ) := by
  have h0 := Complex.neg_pi_lt_arg ⟨y, x⟩
  have h1 : Complex.arg ⟨y, x⟩ < -(π / 2) := not_le.mp fun h =>
    (Complex.neg_pi_div_two_le_arg_iff.mp h).elim (not_le.mpr hy) (not_le.mpr hx)
  have hcos : cos (2 * (Complex.arg ⟨y, x⟩ + π)) = cos (2 * Complex.arg ⟨y, x⟩) := by
    rw [mul_add, cos_add_two_pi]
  have hr := (quarterDegrees_rounds hd (hp.trans (by rw [hcos])) (by linarith) (by linarith)).2
  have hdeg : Complex.arg ⟨y, x⟩ * 180 / π + 360 + 1 / 2
      = (180 : ℤ) + ((Complex.arg ⟨y, x⟩ + π) * 180 / π + 1 / 2) := by
    push_cast
    field_simp
    ring
  rw [bearing_of_neg hx, hdeg, Int.floor_intCast_add, hr]

/-- West to north: the angle is measured back from 360 degrees. -/
theorem floor_bearing_northWest (hx : x < 0) (hy : 0 ≤ y) :
    ⌊bearing x y + 1 / 2⌋ = 360 - (quarterDegrees p d : ℤ) := by
  have h0 : Complex.arg ⟨y, x⟩ < 0 := Complex.arg_neg_iff.mpr hx
  have h1 : -(π / 2) ≤ Complex.arg ⟨y, x⟩ := Complex.neg_pi_div_two_le_arg_iff.mpr (.inl hy)
  have hcos : cos (2 * -Complex.arg ⟨y, x⟩) = cos (2 * Complex.arg ⟨y, x⟩) := by
    rw [mul_neg, cos_neg]
  have hr := (quarterDegrees_rounds hd (hp.trans (by rw [hcos])) (by linarith) (by linarith)).1
  have hdeg : Complex.arg ⟨y, x⟩ * 180 / π + 360 = (360 : ℤ) - -Complex.arg ⟨y, x⟩ * 180 / π := by
    push_cast
    ring
  rw [bearing_of_neg hx, hdeg, floor_intCast_sub_add_half, hr]

end

/-! ### The heading of the integer field -/

section
variable {a b n q : ℤ}

/-- The argument of quarterDegrees in headingOf is the cosine of twice the heading. -/
theorem cos_two_mul_arg_div_sqrt (hn : 0 < n) (hq : 0 < q) :
    ((b * b * q - a * a * n : ℤ) : ℝ)
      = (b * b * q + a * a * n : ℤ) * cos (2 * Complex.arg ⟨b / √n, a / √q⟩) := by
  have hn' : (0 : ℝ) < n := by exact_mod_cast hn
  have hq' : (0 : ℝ) < q := by exact_mod_cast hq
  have h := cos_two_mul_arg (a / √q) (b / √n)
  rw [div_pow, div_pow, sq_sqrt hn'.le, sq_sqrt hq'.le] at h
  generalize cos (2 * Complex.arg _) = c at h ⊢
  field_simp at h
  push_cast
  linarith

theorem div_sqrt_nonneg_iff {v m : ℤ} (hm : 0 < m) : 0 ≤ (v : ℝ) / √m ↔ 0 ≤ v := by
  have hm' : 0 < √(m : ℝ) := sqrt_pos.mpr (by exact_mod_cast hm)
  rw [le_div_iff₀ hm', zero_mul, Int.cast_nonneg_iff]

theorem div_sqrt_neg_iff {v m : ℤ} (hm : 0 < m) : (v : ℝ) / √m < 0 ↔ v < 0 := by
  rw [← not_le, div_sqrt_nonneg_iff hm, not_le]

theorem levelSquares_pos (hn : 0 < n) (hq : 0 < q) (hab : ¬(a = 0 ∧ b = 0)) : 0 < b * b * q + a * a * n := by
  rcases not_and_or.mp hab with ha | hb
  · exact add_pos_of_nonneg_of_pos (mul_nonneg (mul_self_nonneg b) hq.le) (mul_pos (mul_self_pos.mpr ha) hn)
  · exact add_pos_of_pos_of_nonneg (mul_pos (mul_self_pos.mpr hb) hq) (mul_nonneg (mul_self_nonneg a) hn.le)

/-- headingOf is the bearing of the point (b/√n, a/√q), rounded to whole degrees. -/
theorem headingOf_eq (hn : 0 < n) (hq : 0 < q) (hab : ¬(a = 0 ∧ b = 0)) :
    (headingOf a b n q : ℤ) = ⌊bearing (a / √q) (b / √n) + 1 / 2⌋ % 360 := by
  have hd := levelSquares_pos hn hq hab
  have hp := cos_two_mul_arg_div_sqrt (a := a) (b := b) hn hq
  have hle := quarterDegrees_le (b * b * q - a * a * n) (b * b * q + a * a * n)
  rw [headingOf]
  split_ifs with ha hb hb
  · rw [floor_bearing_northEast hd hp ((div_sqrt_nonneg_iff hq).mpr ha) ((div_sqrt_nonneg_iff hn).mpr hb)]
    omega
  · rw [floor_bearing_southEast hd hp ((div_sqrt_nonneg_iff hq).mpr ha) ((div_sqrt_neg_iff hn).mpr (by omega))]
    omega
  · rw [floor_bearing_southWest hd hp ((div_sqrt_neg_iff hq).mpr (by omega)) ((div_sqrt_neg_iff hn).mpr hb)]
    omega
  · rw [floor_bearing_northWest hd hp ((div_sqrt_neg_iff hq).mpr (by omega)) ((div_sqrt_nonneg_iff hn).mpr (by omega))]
    omega

end

end Sys2Proof.Proofs
end

section
/-! SUPPORT. Levelling the field (R165, R166): with n, P and q the sines and cosines of the roll and the pitch are integers
over √n and √q, so the level field is (A/√q, B/√n). -/

namespace Sys2Proof.Proofs

open Real Sys2Proof.Machine Sys2Proof.Claims

/-! ### The sign of signOr1 -/

theorem signOr1_zero : signOr1 0 = 1 := rfl

theorem signOr1_mul_self (v : ℤ) : signOr1 v * signOr1 v = 1 := by
  rw [signOr1]
  split <;> rfl

theorem signOr1_mul (v : ℤ) : signOr1 v * v = |v| := by
  rw [signOr1]
  split
  · rw [abs_of_neg ‹_›, neg_one_mul]
  · rw [abs_of_nonneg (not_lt.mp ‹_›), one_mul]

theorem abs_signOr1 (v : ℤ) : |signOr1 v| = 1 := by
  rw [signOr1]
  split <;> rfl

/-! ### atanQ -/

theorem sqrt_one_add_div_sq {x d r : ℝ} (hd : d ≠ 0) (hr : 0 < r) (h : r ^ 2 = x ^ 2 + d ^ 2) :
    √(1 + (x / d) ^ 2) = r / |d| := by
  have hsq : 1 + (x / d) ^ 2 = (r / |d|) ^ 2 := by
    rw [div_pow, div_pow, sq_abs, h]
    field_simp
    ring
  rw [hsq, sqrt_sq (by positivity)]

theorem cos_atanQ {x d r : ℝ} (hr : 0 < r) (h : r ^ 2 = x ^ 2 + d ^ 2) : cos (atanQ x d) = |d| / r := by
  rw [atanQ]
  split_ifs with hd
  · rw [cos_arctan, sqrt_one_add_div_sq hd hr h, one_div_div]
  · have hx : x ≠ 0 := by
      rintro rfl
      rw [not_not.mp hd] at h
      simp [hr.ne'] at h
    rw [not_not.mp hd, abs_zero, zero_div]
    rcases hx.lt_or_gt with hx | hx
    · rw [sign_of_neg hx, neg_one_mul, cos_neg, cos_pi_div_two]
    · rw [sign_of_pos hx, one_mul, cos_pi_div_two]

/-- The sine of atanQ; e is the sign of d, and 1 at 0. -/
theorem sin_atanQ {x d r e : ℝ} (hr : 0 < r) (h : r ^ 2 = x ^ 2 + d ^ 2) (he : e * d = |d|) (he0 : d = 0 → e = 1) :
    sin (atanQ x d) = x * e / r := by
  rw [atanQ]
  split_ifs with hd
  · rw [sin_arctan, sqrt_one_add_div_sq hd hr h, div_div_div_eq, mul_comm d r, ← mul_div_mul_right (x * e) r hd]
    congr 1
    rw [mul_assoc x e d, he]
  · have hd0 := not_not.mp hd
    have hxr : |x| = r := by
      rw [← abs_of_pos hr, ← sq_eq_sq_iff_abs_eq_abs, h, hd0]
      ring
    rw [he0 hd0, mul_one, ← hxr]
    rcases lt_trichotomy x 0 with hx | rfl | hx
    · rw [sign_of_neg hx, neg_one_mul, sin_neg, sin_pi_div_two, abs_of_neg hx, div_neg, div_self hx.ne]
    · simp
    · rw [sign_of_pos hx, one_mul, sin_pi_div_two, abs_of_pos hx, div_self hx.ne']

/-! ### The levelled field -/

section
variable {g b : Int × Int × Int}

theorem rollNorm_nonneg (g : Int × Int × Int) : 0 ≤ rollNorm g :=
  add_nonneg (mul_self_nonneg _) (mul_self_nonneg _)

theorem rollNorm_eq_zero_iff : rollNorm g = 0 ↔ g.2.1 = 0 ∧ g.2.2 = 0 := mul_self_add_mul_self_eq_zero

theorem pitchNorm_eq_zero_iff (hn : 0 < rollNorm g) : pitchNorm g = 0 ↔ g.1 = 0 ∧ pitchNum g = 0 := by
  have h := mul_nonneg (mul_self_nonneg g.1) hn.le
  rw [pitchNorm, add_eq_zero_iff_of_nonneg h (mul_self_nonneg _), mul_eq_zero, mul_self_eq_zero, mul_self_eq_zero,
    or_iff_left hn.ne']

theorem pitchNorm_nonneg (g : Int × Int × Int) : 0 ≤ pitchNorm g :=
  add_nonneg (mul_nonneg (mul_self_nonneg _) (rollNorm_nonneg g)) (mul_self_nonneg _)

theorem sqrt_pitchNorm_pos (hq : 0 < pitchNorm g) : 0 < √(pitchNorm g : ℝ) := sqrt_pos.mpr (by exact_mod_cast hq)

section
variable (hn : 0 < rollNorm g)
include hn

theorem sqrt_rollNorm_pos : 0 < √(rollNorm g : ℝ) := sqrt_pos.mpr (by exact_mod_cast hn)

theorem sq_sqrt_rollNorm : √(rollNorm g : ℝ) ^ 2 = (-(g.2.1 : ℝ)) ^ 2 + (g.2.2 : ℝ) ^ 2 := by
  rw [sq_sqrt (by exact_mod_cast hn.le), rollNorm]
  push_cast
  ring

theorem cos_roll : cos (roll g) = |(g.2.2 : ℝ)| / √(rollNorm g) :=
  cos_atanQ (sqrt_rollNorm_pos hn) (sq_sqrt_rollNorm hn)

theorem sin_roll : sin (roll g) = -(g.2.1 : ℝ) * signOr1 g.2.2 / √(rollNorm g) :=
  sin_atanQ (sqrt_rollNorm_pos hn) (sq_sqrt_rollNorm hn) (by exact_mod_cast signOr1_mul g.2.2)
    fun h => by rw [Int.cast_eq_zero.mp h, signOr1_zero, Int.cast_one]

/-- D is σ·P/√n. -/
theorem pitchBase_eq : pitchBase g = (signOr1 g.2.2 * pitchNum g : ℤ) / √(rollNorm g) := by
  have habs : |(g.2.2 : ℝ)| = signOr1 g.2.2 * g.2.2 := by exact_mod_cast (signOr1_mul g.2.2).symm
  rw [pitchBase, sin_roll hn, cos_roll hn, habs, pitchNum]
  push_cast
  ring

theorem pitchBase_eq_zero_iff : pitchBase g = 0 ↔ pitchNum g = 0 := by
  have hs : signOr1 g.2.2 ≠ 0 := left_ne_zero_of_mul_eq_one (signOr1_mul_self _)
  rw [pitchBase_eq hn, div_eq_zero_iff, or_iff_left (sqrt_rollNorm_pos hn).ne', Int.cast_eq_zero, mul_eq_zero,
    or_iff_right hs]

theorem fieldY_eq : fieldY g b = levelY g b / √(rollNorm g) := by
  rw [fieldY, sin_roll hn, cos_roll hn, levelY]
  push_cast
  ring

variable (hq : 0 < pitchNorm g)
include hq

theorem sq_pitchNorm_div_rollNorm :
    (√(pitchNorm g : ℝ) / √(rollNorm g)) ^ 2 = (g.1 : ℝ) ^ 2 + pitchBase g ^ 2 := by
  have hn' : (0 : ℝ) < rollNorm g := by exact_mod_cast hn
  have hs : ((signOr1 g.2.2 : ℤ) : ℝ) * signOr1 g.2.2 = 1 := by exact_mod_cast signOr1_mul_self g.2.2
  rw [pitchBase_eq hn, div_pow, div_pow, sq_sqrt hn'.le, sq_sqrt (by exact_mod_cast hq.le), pitchNorm]
  push_cast
  field_simp
  linear_combination (-(pitchNum g : ℝ) ^ 2) * hs

theorem cos_pitch : cos (pitch g) = |(pitchNum g : ℝ)| / √(pitchNorm g) := by
  have hnp := sqrt_rollNorm_pos hn
  have habs : |((signOr1 g.2.2 * pitchNum g : ℤ) : ℝ)| = |(pitchNum g : ℝ)| := by
    rw [← Int.cast_abs, abs_mul, abs_signOr1, one_mul, Int.cast_abs]
  rw [pitch, cos_atanQ (div_pos (sqrt_pitchNorm_pos hq) hnp) (sq_pitchNorm_div_rollNorm hn hq), pitchBase_eq hn,
    abs_div, habs, abs_of_pos hnp, div_div_div_cancel_right₀ hnp.ne']

theorem sin_pitch :
    sin (pitch g) = g.1 * signOr1 (signOr1 g.2.2 * pitchNum g) * √(rollNorm g) / √(pitchNorm g) := by
  have hnp := sqrt_rollNorm_pos hn
  have hsign : (signOr1 (signOr1 g.2.2 * pitchNum g) : ℝ) * pitchBase g = |pitchBase g| := by
    rw [pitchBase_eq hn, abs_div, abs_of_pos hnp, ← mul_div_assoc]
    exact_mod_cast congrArg (fun v : ℤ => (v : ℝ) / √(rollNorm g)) (signOr1_mul (signOr1 g.2.2 * pitchNum g))
  have hzero (h : pitchBase g = 0) : (signOr1 (signOr1 g.2.2 * pitchNum g) : ℝ) = 1 := by
    rw [(pitchBase_eq_zero_iff hn).mp h, mul_zero, signOr1_zero, Int.cast_one]
  rw [pitch, sin_atanQ (div_pos (sqrt_pitchNorm_pos hq) hnp) (sq_pitchNorm_div_rollNorm hn hq) hsign hzero,
    div_div_eq_mul_div]

theorem fieldX_eq : fieldX g b = levelX g b / √(pitchNorm g) := by
  rw [fieldX, sin_roll hn, cos_roll hn, sin_pitch hn hq, cos_pitch hn hq, levelX]
  have := (sqrt_rollNorm_pos hn).ne'
  push_cast
  field_simp
  ring

end

/-- The integers alone find the three degenerate inputs. -/
theorem compassDegenerate_iff : compassDegenerate g b = true ↔ Degenerate g b := by
  simp only [compassDegenerate, Degenerate, Bool.or_eq_true, Bool.and_eq_true, beq_iff_eq, or_assoc,
    rollNorm_eq_zero_iff]
  refine or_congr_right' fun hroll => ?_
  have hn : 0 < rollNorm g := (rollNorm_nonneg g).lt_of_ne' (rollNorm_eq_zero_iff.not.mpr hroll)
  rw [pitchBase_eq_zero_iff hn, ← pitchNorm_eq_zero_iff hn]
  refine or_congr_right' fun hpitch => ?_
  have hq : 0 < pitchNorm g := (pitchNorm_nonneg g).lt_of_ne' hpitch
  rw [fieldX_eq hn hq, fieldY_eq hn, div_eq_zero_iff, div_eq_zero_iff, Int.cast_eq_zero, Int.cast_eq_zero,
    or_iff_left (sqrt_pitchNorm_pos hq).ne', or_iff_left (sqrt_rollNorm_pos hn).ne']

theorem compassDegenerate_eq_false_iff : compassDegenerate g b = false ↔
    0 < rollNorm g ∧ 0 < pitchNorm g ∧ ¬(levelX g b = 0 ∧ levelY g b = 0) := by
  have hn := rollNorm_nonneg g
  have hq := pitchNorm_nonneg g
  simp only [compassDegenerate, Bool.or_eq_false_iff, Bool.and_eq_false_iff, beq_eq_false_iff_ne, and_assoc]
  omega

theorem compassHeading_eq_none_iff : compassHeading g b = none ↔ compassDegenerate g b = true := by
  simp [compassHeading]

theorem compassHeading_eq_some {h : Nat} (hh : compassHeading g b = some h) : compassDegenerate g b = false
    ∧ headingOf (levelX g b) (levelY g b) (rollNorm g) (pitchNorm g) = h := by
  rw [compassHeading] at hh
  split at hh
  · cases hh
  · exact ⟨Bool.eq_false_iff.mpr ‹_›, Option.some.inj hh⟩

end

end Sys2Proof.Proofs
end

section
open Sys2Proof Sys2Proof.Machine Sys2Proof.Claims Sys2Proof.Proofs

/-- Settles O53: the level field of the integers is the real one, and headingOf rounds its bearing. -/
theorem compassHeadingIsExact : Obligations.CompassHeadingIsExact := by
  intro g b
  refine ⟨compassHeading_eq_none_iff.trans compassDegenerate_iff, fun h hh => ?_⟩
  obtain ⟨hdeg, rfl⟩ := compassHeading_eq_some hh
  obtain ⟨hn, hq, hlevel⟩ := compassDegenerate_eq_false_iff.mp hdeg
  rw [headingOf_eq hn hq hlevel, realHeading_eq, fieldX_eq hn hq, fieldY_eq hn]

end

section
/-! SUPPORT. What a step of an op leaves alone: a frame equation for each shared operation that had none, the one write
of context cur that every step of an op makes, and the frame of each group of registers (R33 to R39, R46, R47, R62). -/

namespace Sys2Proof.Proofs

open Sys2Proof Sys2Proof.Machine Sys2Proof.Claims

/-! ### Frame equations -/

theorem initEffect_eq (s : State) : initEffect s = { s with initDone := true, ready := s.ready || !s.initDone } := by
  obtain ⟨⟩ := s
  simp only [initEffect]
  split <;> simp_all

/-- The own effect that op i can have at its commit: only SET_SINGLE_LED has one (R118). -/
def OwnEffect (i : Instr) (effect : Latch → State → State) : Prop :=
  effect = noEffect ∨ (∃ p r g b, i = .setSingleLed p r g b) ∧ effect = setSingleEffect

/-- An op's own effect writes only the beak (R118, R139). -/
theorem effect_frame {i : Instr} {effect : Latch → State → State} (l : Latch) (s : State)
    (he : OwnEffect i effect) :
    effect l s = { s with beakR := (effect l s).beakR, beakG := (effect l s).beakG, beakB := (effect l s).beakB } := by
  obtain rfl | ⟨-, rfl⟩ := he
  · rfl
  · unfold setSingleEffect
    split <;> rfl

/-- The state whose frame a byte slot shifts: byte 0 begins the transaction (R109). -/
def begun (build : Latch → State → Frame) (l : Latch) (s : State) : State :=
  if s.xfer then s else beginFrame (build l s) s

theorem begun_frame (build : Latch → State → Frame) (l : Latch) (s : State) :
    begun build l s = { s with xfer := true, csN := (begun build l s).csN, tx := (begun build l s).tx
                               slot := (begun build l s).slot } := by
  obtain ⟨⟩ := s
  unfold begun
  split <;> simp_all [beginFrame]

@[simp] theorem begun_cur (build : Latch → State → Frame) (l : Latch) (s : State) : (begun build l s).cur = s.cur := by
  rw [begun_frame]

@[simp] theorem begun_ctxs (build : Latch → State → Frame) (l : Latch) (s : State) :
    (begun build l s).ctxs = s.ctxs := by
  rw [begun_frame]

@[simp] theorem begun_ctx (build : Latch → State → Frame) (l : Latch) (s : State) (k : Nat) :
    (begun build l s).ctx k = s.ctx k := by
  rw [State.ctx, begun_ctxs, State.ctx]

/-- The slot after one that is not the last. -/
theorem val_slot_succ {n : Fin 16} (h : n ≠ 15) : (n + 1).val = n.val + 1 := by
  have hne : n.val ≠ 15 := fun hv => h (Fin.ext hv)
  rw [Fin.val_add]
  change (n.val + 1) % 16 = _
  omega

/-- A byte slot that is not the last. -/
def shiftByte (s : State) : State := { exchange s with slot := s.slot + 1 }

theorem byteStep_eq (build : Latch → State → Frame) (l : Latch) (s : State) :
    byteStep build l s = if (begun build l s).slot = 15 then endFrame (exchange (begun build l s))
      else shiftByte (begun build l s) := rfl

/-- A byte slot writes only the transport, and context cur at its end (R109). -/
theorem byteStep_frame (build : Latch → State → Frame) (l : Latch) (s : State) :
    byteStep build l s = { s with
      xfer := (byteStep build l s).xfer, csN := (byteStep build l s).csN, tx := (byteStep build l s).tx
      rx := (byteStep build l s).rx, slot := (byteStep build l s).slot, slotOut := (byteStep build l s).slotOut
      ctxs := (byteStep build l s).ctxs } := by
  rw [byteStep_eq, begun_frame]
  split <;> rfl

theorem byteStep_ctxs (build : Latch → State → Frame) (l : Latch) (s : State) :
    (byteStep build l s).ctxs = s.ctxs
      ∨ (byteStep build l s).ctxs = (s.updMe fun c => { c with phase := .commit }).ctxs := by
  rw [byteStep_eq, begun_frame]
  split
  · exact .inr rfl
  · exact .inl rfl

/-! ### The one write of context cur -/

theorem move_phase_ne_idle {i : Instr} {s t : State} (h : Move i s t) : s.me.phase ≠ .idle := by
  cases h <;> simp_all

/-- A step is of a context that exists. -/
theorem move_cur_lt {i : Instr} {s t : State} (h : Move i s t) : s.cur < s.ctxs.length := by
  by_contra hc
  exact move_phase_ne_idle h (by rw [State.me, ctx_beyond (Nat.le_of_not_lt hc)]; rfl)

/-- What a write of context cur in phase p may change: never CMD, OVR or TXBUF, RXBUF only in a commit step, LAT only in
a decode step (R46, R47, R48). -/
structure OwnWrite (p : Phase) (c d : Ctx) : Prop where
  cmd : d.cmd = c.cmd
  ovr : d.ovr = c.ovr
  txbuf : d.txbuf = c.txbuf
  rxbuf : p ≠ .commit → d.rxbuf = c.rxbuf
  lat : p ≠ .decode → d.lat = c.lat

/-- Two writes of context cur in a row are one. -/
theorem ctxs_updMe_of {s u : State} {f : Ctx → Ctx} (g : Ctx → Ctx) (hu : u.ctxs = (s.updMe f).ctxs)
    (hcur : u.cur = s.cur) : (u.updMe g).ctxs = (s.updMe fun c => g (f c)).ctxs := by
  rw [← updMe_updMe s]
  change u.ctxs.modify u.cur g = (s.updMe f).ctxs.modify s.cur g
  rw [hu, hcur]

/-- Every step of an op is one write of context cur. -/
theorem move_updMe {i : Instr} {s t : State} (h : Move i s t) :
    ∃ f : Ctx → Ctx, t.ctxs = (s.updMe f).ctxs ∧ ∀ c, OwnWrite s.me.phase c (f c) := by
  cases h with
  | localDone l r hp | decodeStop l r hp | decodePoll l hp | decodeAge l hp =>
    exact ⟨_, ctxs_updMe_of _ rfl rfl, fun _ => ⟨rfl, rfl, rfl, fun _ => rfl, fun hn => absurd hp hn⟩⟩
  | initDone l hp =>
    rw [initEffect_eq]
    exact ⟨_, ctxs_updMe_of _ rfl rfl, fun _ => ⟨rfl, rfl, rfl, fun _ => rfl, fun hn => absurd hp hn⟩⟩
  | pollDrop =>
    exact ⟨_, ctxs_updMe_of _ rfl rfl, fun _ => ⟨rfl, rfl, rfl, fun _ => rfl, fun _ => rfl⟩⟩
  | ageFresh | agePoll | pollClaim | pollAgain =>
    exact ⟨_, rfl, fun _ => ⟨rfl, rfl, rfl, fun _ => rfl, fun _ => rfl⟩⟩
  | byte build l =>
    obtain h | h := byteStep_ctxs build l s
    · exact ⟨id, by simp [h, State.updMe, State.updCtx], fun _ => ⟨rfl, rfl, rfl, fun _ => rfl, fun _ => rfl⟩⟩
    · exact ⟨_, h, fun _ => ⟨rfl, rfl, rfl, fun _ => rfl, fun _ => rfl⟩⟩
  | commit l effect r hp hi ho hl he =>
    rw [effect_frame l _ he]
    exact ⟨_, ctxs_updMe_of _ rfl rfl, fun _ => ⟨rfl, rfl, rfl, fun hn => absurd hp hn, fun _ => rfl⟩⟩

/-- Context cur after one write of it. -/
theorem me_of_ctxs {s t : State} {f : Ctx → Ctx} (ht : t.ctxs = (s.updMe f).ctxs) (hcur : t.cur = s.cur)
    (hc : s.cur < s.ctxs.length) : t.me = f s.me := by
  rw [← me_updMe f hc, State.me, State.me, State.ctx, State.ctx, ht, hcur, updMe_cur]

section
variable {i : Instr} {s t : State} (h : Move i s t)
include h

/-- The parameters, the ports that no op writes and the environment. -/
theorem move_outsideKept : OutsideKept s t := by
  cases h with
  | initDone => rw [initEffect_eq]; exact ⟨rfl, rfl, rfl, rfl, rfl, rfl, rfl, rfl, rfl, rfl⟩
  | byte => rw [byteStep_frame]; exact ⟨rfl, rfl, rfl, rfl, rfl, rfl, rfl, rfl, rfl, rfl⟩
  | commit l effect r hp hi ho hl he =>
    rw [effect_frame l _ he]; exact ⟨rfl, rfl, rfl, rfl, rfl, rfl, rfl, rfl, rfl, rfl⟩
  | _ => exact ⟨rfl, rfl, rfl, rfl, rfl, rfl, rfl, rfl, rfl, rfl⟩

theorem move_ownWrite : OwnWrite s.me.phase s.me t.me := by
  obtain ⟨f, hf, hw⟩ := move_updMe h
  obtain ⟨-, -, -, -, -, -, -, hcur, -, -⟩ := move_outsideKept h
  rw [me_of_ctxs hf hcur (move_cur_lt h)]
  exact hw s.me

theorem move_length : t.ctxs.length = s.ctxs.length := by
  obtain ⟨f, hf, -⟩ := move_updMe h
  rw [hf, length_updMe]

theorem move_ctx_ne {k : Nat} (hk : k ≠ s.cur) : t.ctx k = s.ctx k := by
  obtain ⟨f, hf, -⟩ := move_updMe h
  rw [← ctx_updMe_ne f hk, State.ctx, State.ctx, hf]

theorem move_ctxKept : CtxKept s t :=
  have hw := move_ownWrite h
  ⟨move_length h, fun _ hk => move_ctx_ne h hk, hw.cmd, hw.ovr, hw.txbuf⟩

/-! ### The shared registers -/

/-- Only INIT's decode step writes G.INIT_DONE (R34). -/
theorem move_initDone (hi : i ≠ .init) : t.initDone = s.initDone := by
  cases h with
  | initDone l hp hinit => exact absurd hinit hi
  | byte => rw [byteStep_frame]
  | commit l effect r hp hi ho hl he => rw [effect_frame l _ he]; rfl
  | _ => rfl

/-- The three writers of G.READY among the moves: the first INIT, a successful poll and a release (R33). -/
theorem move_ready_cases : t.ready = s.ready
    ∨ (s.me.phase = .decode ∧ i = .init ∧ s.initDone = false ∧ t.ready = true)
    ∨ (s.me.phase = .poll ∧ t.ready = false ∧ t.owner = some s.cur)
    ∨ (s.me.phase = .commit ∧ s.owner = some s.cur ∧ t.ready = true ∧ t.owner = none) := by
  cases h with
  | initDone l hp hi =>
    rw [initEffect_eq]
    cases hd : s.initDone with
    | false => exact .inr (.inl ⟨hp, hi, rfl, by simp [hd]⟩)
    | true => exact .inl (by simp [hd])
  | pollClaim hp => exact .inr (.inr (.inl ⟨hp, rfl, rfl⟩))
  | byte => rw [byteStep_frame]; exact .inl rfl
  | commit l effect r hp _ ho => exact .inr (.inr (.inr ⟨hp, ho, rfl, rfl⟩))
  | _ => exact .inl rfl

/-- The two writers of G.OWNER: a successful poll takes the claim, a commit releases it (R35, R115, R117). -/
theorem move_owner_cases : t.owner = s.owner
    ∨ (s.me.phase = .poll ∧ s.ready = true ∧ t.ready = false ∧ t.owner = some s.cur)
    ∨ (s.me.phase = .commit ∧ s.owner = some s.cur ∧ t.ready = true ∧ t.owner = none) := by
  cases h with
  | initDone => rw [initEffect_eq]; exact .inl rfl
  | pollClaim hp _ hr => exact .inr (.inl ⟨hp, hr, rfl, rfl⟩)
  | byte => rw [byteStep_frame]; exact .inl rfl
  | commit l effect r hp _ ho => exact .inr (.inr ⟨hp, ho, rfl, rfl⟩)
  | _ => exact .inl rfl

theorem move_ready (hi : i ≠ .init) (hp : s.me.phase ≠ .poll) (hc : s.me.phase ≠ .commit) : t.ready = s.ready := by
  obtain h | ⟨-, hi', -⟩ | ⟨hp', -⟩ | ⟨hc', -⟩ := move_ready_cases h
  · exact h
  · exact absurd hi' hi
  · exact absurd hp' hp
  · exact absurd hc' hc

theorem move_owner (hp : s.me.phase ≠ .poll) (hc : s.me.phase ≠ .commit) : t.owner = s.owner := by
  obtain h | ⟨hp', -⟩ | ⟨hc', -⟩ := move_owner_cases h
  · exact h
  · exact absurd hp' hp
  · exact absurd hc' hc

/-- A byte slot needs the claim (R109). -/
theorem move_xfer_owner (hp : s.me.phase = .xfer) : s.owner = some s.cur := by
  cases h with
  | byte build l _ _ ho => exact ho
  | _ => simp_all

/-- Only the byte slots write the transport (R36, R62). -/
theorem move_transportKept (hx : s.me.phase ≠ .xfer) : TransportKept s t := by
  cases h with
  | initDone => rw [initEffect_eq]; exact ⟨rfl, rfl, rfl, rfl, rfl, rfl⟩
  | byte build l hx' => exact absurd hx' hx
  | commit l effect r hp hi ho hl he => rw [effect_frame l _ he]; exact ⟨rfl, rfl, rfl, rfl, rfl, rfl⟩
  | _ => exact ⟨rfl, rfl, rfl, rfl, rfl, rfl⟩

/-- Only the commits write the beak, the snapshot and its time (R37, R38, R39). -/
theorem move_cacheKept (hc : s.me.phase ≠ .commit) : CacheKept s t := by
  cases h with
  | initDone => rw [initEffect_eq]; exact ⟨rfl, rfl, rfl, rfl, rfl⟩
  | byte => rw [byteStep_frame]; exact ⟨rfl, rfl, rfl, rfl, rfl⟩
  | commit l effect r hc' => exact absurd hc' hc
  | _ => exact ⟨rfl, rfl, rfl, rfl, rfl⟩

/-- What a commit step is (R118). -/
theorem move_commit (hp : s.me.phase = .commit) : s.owner = some s.cur ∧ ∃ l effect r, s.me.lat = some l
    ∧ OwnEffect i effect ∧ t = finish .ok r (release (effect l (commitFrame l.kind s))) := by
  cases h with
  | commit l effect r _ hi ho hl he => exact ⟨ho, l, effect, r, hl, he, rfl⟩
  | _ => simp_all

/-- What a commit step writes (R117, R118). -/
theorem move_commit_writes (hp : s.me.phase = .commit) : t.snap = s.rx ∧ t.me.rxbuf = s.rx ∧ t.ready = true
    ∧ t.owner = none ∧ t.me.phase = .idle
    ∧ ∃ l, s.me.lat = some l ∧ t.snapTime = if l.kind = .sensorRead then s.now else s.snapTime := by
  have hc := move_cur_lt h
  obtain ⟨-, l, effect, r, hl, he, rfl⟩ := move_commit h hp
  rw [effect_frame l _ he]
  have hme := me_of_ctxs (t := finish .ok r (release (commitFrame l.kind s))) (ctxs_updMe_of _ rfl rfl) rfl hc
  exact ⟨rfl, congrArg Ctx.rxbuf hme, rfl, rfl, congrArg Ctx.phase hme, l, hl, rfl⟩

theorem move_beak (hb : isSingleLed i = false) : (t.beakR, t.beakG, t.beakB) = (s.beakR, s.beakG, s.beakB) := by
  by_cases hp : s.me.phase = .commit
  · obtain ⟨-, l, effect, r, -, rfl | ⟨⟨p, c, g, b, rfl⟩, -⟩, rfl⟩ := move_commit h hp
    · rfl
    · cases hb
  · obtain ⟨hr, hg, hb, -, -⟩ := move_cacheKept h hp
    rw [hr, hg, hb]

end

end Sys2Proof.Proofs
end

section
open Sys2Proof Sys2Proof.Machine Sys2Proof.Claims Sys2Proof.Proofs

/-- Settles O59: every next state of exec is a move, and each move is one write of context cur beside the shared
registers that its phase and op may write. -/
theorem opStepFrame : Obligations.OpStepFrame := by
  intro i s t h
  have hm := exec_move h
  have hw := move_ownWrite hm
  exact ⟨move_ctxKept hm, move_outsideKept hm, move_initDone hm, move_ready hm, move_owner hm, move_transportKept hm,
    fun hc => ⟨move_cacheKept hm hc, hw.rxbuf hc⟩, move_beak hm, hw.lat⟩

end

section
/-! SUPPORT. What a step of the machine can be, as its shared registers see it: a reset, a step that leaves them all, or
a move of one context's op. Every statement about who writes a register follows from this and the frames of the moves. -/

namespace Sys2Proof.Proofs

open Sys2Proof Sys2Proof.Machine Sys2Proof.Claims

/-! ### The host's writes -/

/-- A host write leaves RCODE, RESULT, RXBUF, POLLS, LAT and the wait (R71). -/
theorem ctxWrite_frame (off : Nat) (w : Word) (c : Ctx) :
    ctxWrite off w c = { c with
      cmd := (ctxWrite off w c).cmd, busy := (ctxWrite off w c).busy, ovr := (ctxWrite off w c).ovr
      txbuf := (ctxWrite off w c).txbuf, phase := (ctxWrite off w c).phase } := by
  unfold ctxWrite cmdWrite statusWrite
  split
  · split <;> rfl
  · split <;> rfl
  all_goals rfl

/-- A host write leaves PHASE and BUSY, or it is the accept step of a context that is not busy (R73). -/
theorem ctxWrite_run (off : Nat) (w : Word) (c : Ctx) :
    ((ctxWrite off w c).phase = c.phase ∧ (ctxWrite off w c).busy = c.busy)
      ∨ (c.busy = false ∧ (ctxWrite off w c).phase = .decode ∧ (ctxWrite off w c).busy = true) := by
  unfold ctxWrite cmdWrite statusWrite
  split
  · split
    · exact .inl ⟨rfl, rfl⟩
    · exact .inr ⟨by simpa using ‹¬ c.busy = true›, rfl, rfl⟩
  · split <;> exact .inl ⟨rfl, rfl⟩
  all_goals exact .inl ⟨rfl, rfl⟩

/-- A write of context k leaves context j, or j is k and exists. -/
theorem ctx_updCtx_or (s : State) (k j : Nat) (f : Ctx → Ctx) :
    (s.updCtx k f).ctx j = s.ctx j ∨ (j = k ∧ k < s.ctxs.length ∧ (s.updCtx k f).ctx j = f (s.ctx j)) := by
  by_cases hj : j = k
  · subst hj
    by_cases hk : j < s.ctxs.length
    · exact .inr ⟨rfl, hk, ctx_updCtx_self f hk⟩
    · exact .inl (by rw [ctx_beyond (by simpa using hk), ctx_beyond (by simpa using hk)])
  · exact .inl (ctx_updCtx_ne f hj)

/-! ### Who steps -/

/-- The op that context k's next step runs (R48, R50, R86). -/
def RunsOp (s : State) (k : Nat) (i : Instr) : Prop :=
  ((s.ctx k).phase = .decode ∧ decode (s.ctx k).cmd = .ok i)
    ∨ ((s.ctx k).phase.latched = true ∧ ∃ l, (s.ctx k).lat = some l ∧ l.op = i)

/-- The parameters, the shared registers and every RXBUF are as before. -/
def SharedKept (s t : State) : Prop :=
  t.cfg = s.cfg ∧ ArbiterKept s t ∧ CacheKept s t ∧ TransportKept s t ∧ ∀ k, (t.ctx k).rxbuf = (s.ctx k).rxbuf

theorem sharedKept_observed (s : State) : SharedKept s (observed s) := by
  simp [SharedKept, ArbiterKept, CacheKept, TransportKept]

theorem sharedKept_updCtx {s t : State} {f : Ctx → Ctx} (k : Nat) (hf : ∀ c, (f c).rxbuf = c.rxbuf)
    (h : SharedKept s t) : SharedKept s (t.updCtx k f) := by
  obtain ⟨hcfg, harb, hcache, htr, hrx⟩ := h
  refine ⟨hcfg, harb, hcache, htr, fun j => ?_⟩
  obtain h | ⟨-, -, h⟩ := ctx_updCtx_or t k j f
  · rw [h, hrx]
  · rw [h, hf, hrx]

theorem sharedKept_hostAccess {s t : State} {h : HostAccess} (ht : hostAccess h (observed s) = .next t) :
    SharedKept s t := by
  obtain ⟨v, rfl⟩ | rfl | ⟨a, w, -, -, -, -, rfl⟩ := hostAccess_next ht
  · exact sharedKept_observed s
  · exact sharedKept_observed s
  · exact sharedKept_updCtx _ (fun c => by rw [ctxWrite_frame]) (sharedKept_observed s)

/-- A step is a reset, leaves the shared registers, or is a move of one context's op. -/
theorem step_shape {s t : State} (h : step s = .next t) :
    (ResetNext s ∧ t = setRst false (observed s)) ∨ SharedKept s t
      ∨ ∃ k i, CtxSteps s k ∧ RunsOp s k i ∧ Move i (atStep s k) t := by
  cases step_move h with
  | quiet => exact .inr (.inl (sharedKept_observed s))
  | host _ _ _ ht => exact .inr (.inl (sharedKept_hostAccess ht))
  | illegal k => exact .inr (.inl (sharedKept_updCtx (t := atStep s k) k (fun _ => rfl) (sharedKept_observed s)))
  | decode k i _ hk hp hd ht => exact .inr (.inr ⟨k, i, hk, .inl ⟨hp, hd⟩, exec_move ht⟩)
  | latched k l _ hk hp hl _ ht => exact .inr (.inr ⟨k, l.op, hk, .inr ⟨hp, l, hl, rfl⟩, exec_move ht⟩)
  | rst level ha =>
    cases level with
    | false => exact .inl ⟨ha, rfl⟩
    | true => exact .inr (.inl (sharedKept_observed s))

end Sys2Proof.Proofs
end

section
open Sys2Proof Sys2Proof.Machine Sys2Proof.Claims Sys2Proof.Proofs

/-- Settles O60: no op writes the parameters, and a reset keeps them. -/
theorem parametersNeverChange : Obligations.ParametersNeverChange := by
  intro s t h
  obtain ⟨-, rfl⟩ | ⟨hcfg, -⟩ | ⟨k, i, -, -, hm⟩ := step_shape h
  · exact observed_cfg s
  · exact hcfg
  · obtain ⟨hcfg, -⟩ := move_outsideKept hm
    rw [hcfg, atStep_cfg]

/-- Settles O56: of the moves only a commit writes the beak, and there only SET_SINGLE_LED's effect at port 0. -/
theorem beakHasOneWriter : Obligations.BeakHasOneWriter := by
  intro s t h hne
  obtain ⟨hr, -⟩ | ⟨-, -, ⟨hR, hG, hB, -, -⟩, -⟩ | ⟨k, i, hk, hrun, hm⟩ := step_shape h
  · exact .inl hr
  · exact absurd (by rw [hR, hG, hB]) hne
  refine .inr ?_
  by_cases hp : (atStep s k).me.phase = .commit
  case neg =>
    obtain ⟨hR, hG, hB, -, -⟩ := move_cacheKept hm hp
    exact absurd (by rw [hR, hG, hB, atStep_beakR, atStep_beakG, atStep_beakB]) hne
  obtain ⟨ho, l, effect, r, hl, rfl | ⟨⟨p, c, g, b, rfl⟩, rfl⟩, rfl⟩ := move_commit hm hp
  · exact absurd (by simp [noEffect]) hne
  rw [atStep_me, observed_ctx_phase] at hp
  rw [atStep_me, observed_ctx_lat] at hl
  by_cases hport : l.port = 0
  · refine ⟨k, l, p, c, g, b, hk, hp, by simpa using ho, hl, ?_, hport, by simp [setSingleEffect, hport]⟩
    obtain ⟨hd, -⟩ | ⟨-, l', hl', hop⟩ := hrun
    · simp [hp] at hd
    · rw [hl, Option.some.injEq] at hl'
      rw [hl', hop]
  · exact absurd (by simp [setSingleEffect, hport]) hne

/-- Settles O57: of the moves only a commit writes them, to the frame received and, for a sensor read, to `now`. -/
theorem snapshotWrittenByCommits : Obligations.SnapshotWrittenByCommits := by
  intro s t h
  obtain ⟨hr, -⟩ | ⟨-, -, ⟨-, -, -, hsnap, htime⟩, -, hrx⟩ | ⟨k, i, hk, -, hm⟩ := step_shape h
  · exact ⟨fun _ => .inl hr, fun _ _ => .inl hr, fun _ => .inl hr⟩
  · exact ⟨fun hne => absurd hsnap hne, fun k hne => absurd (hrx k) hne, fun hne => absurd htime hne⟩
  have hother (j : Nat) (hj : j ≠ k) : (t.ctx j).rxbuf = (s.ctx j).rxbuf := by
    rw [move_ctx_ne hm hj, atStep_ctx, observed_ctx_rxbuf]
  obtain ⟨-, -, -, -, -, -, -, hcur, -, -⟩ := move_outsideKept hm
  have hme : t.me = t.ctx k := by rw [State.me, hcur, atStep_cur]
  by_cases hp : (atStep s k).me.phase = .commit
  case neg =>
    obtain ⟨-, -, -, hsnap, htime⟩ := move_cacheKept hm hp
    have hrx := (move_ownWrite hm).rxbuf hp
    rw [hme, atStep_me, observed_ctx_rxbuf] at hrx
    refine ⟨fun hne => absurd (by simpa using hsnap) hne, fun j hne => ?_, fun hne => absurd (by simpa using htime) hne⟩
    by_cases hj : j = k
    · exact absurd (hj ▸ hrx) hne
    · exact absurd (hother j hj) hne
  obtain ⟨ho, -⟩ := move_commit hm hp
  obtain ⟨hsnap, hrx, -, -, -, l, hl, htime⟩ := move_commit_writes hm hp
  simp only [atStep_me, atStep_owner, atStep_cur, atStep_rx, hme, observed_ctx_phase, observed_ctx_lat,
    atStep_snapTime] at hp ho hsnap hrx hl htime
  refine ⟨fun _ => .inr ⟨k, hk, hp, ho, hsnap⟩, fun j hne => .inr ?_, fun hne => .inr ⟨k, l, hk, hp, ho, hl, ?_⟩⟩
  · by_cases hj : j = k
    · subst hj
      exact ⟨hk, hp, ho, hrx⟩
    · exact absurd (hother j hj) hne
  · by_cases hkind : l.kind = .sensorRead
    · rw [if_pos hkind] at htime
      exact ⟨hkind, htime⟩
    · exact absurd (htime.trans (if_neg hkind)) hne

end

section
/-! SUPPORT. The invariant: it holds at reset, an event keeps it, and so does each operation that a step of an op is made
of (R64). -/

namespace Sys2Proof.Proofs

open Sys2Proof Sys2Proof.Machine Sys2Proof.Claims

/-! ### Consequences -/

/-- ACQ_MAX is at least 1 in every configuration (R11). -/
theorem acqMax_pos (cfg : Config) : 0 < cfg.acqMax := by
  have h := cfg.isLegal
  simp only [Params.legal, Bool.and_eq_true, decide_eq_true_eq] at h
  obtain ⟨-, hq⟩ := h
  exact hq

/-- N_CTX is at least 1 in every configuration (R9). -/
theorem nCtx_pos (cfg : Config) : 0 < cfg.nCtx := by
  have h := cfg.isLegal
  simp only [Params.legal, Bool.and_eq_true, decide_eq_true_eq] at h
  obtain ⟨⟨⟨⟨⟨⟨⟨hn, -⟩, -⟩, -⟩, -⟩, -⟩, -⟩, -⟩ := h
  exact hn

theorem ctxInv_reset (cfg : Config) : CtxInv cfg Ctx.reset :=
  ⟨by decide, acqMax_pos cfg, by decide, by decide⟩

section
variable {s : State} (h : Inv s)
include h

theorem inv_ready_iff : s.ready = true ↔ s.initDone = true ∧ s.owner = none := by
  cases hi : s.initDone with
  | false => simp [h.before_init hi]
  | true => simp [h.after_init hi]

/-- What holds of each context holds of one that does not exist too: it reads as one at reset. -/
theorem inv_ctx (k : Nat) : CtxInv s.cfg (s.ctx k) := by
  by_cases hk : k < s.ctxs.length
  · exact h.ctx_inv _ (ctx_mem hk)
  · rw [ctx_beyond (Nat.le_of_not_lt hk)]
    exact ctxInv_reset _

theorem inv_phase_idle {k : Nat} (hb : (s.ctx k).busy = false) : (s.ctx k).phase = .idle := by
  by_contra hp
  have := (inv_ctx h k).busy_iff.mpr hp
  simp [hb] at this

/-- On a free bus no context holds the claim and no transaction runs (R64). -/
theorem inv_free (ho : s.owner = none) : (∀ k, (s.ctx k).phase.claimed = false) ∧ s.xfer = false := by
  constructor
  · intro k
    by_contra hk
    have := h.claimed_owner k (by simpa using hk)
    simp [ho] at this
  · by_contra hx
    obtain ⟨k, hk, -⟩ := h.xfer_claimed (by simpa using hx)
    simp [ho] at hk

end

/-! ### Reset and the event -/

theorem ctx_blockAtReset {s : State} (h : BlockAtReset s) (k : Nat) : s.ctx k = Ctx.reset := by
  obtain ⟨-, -, -, -, -, -, -, -, -, -, hctx, -, -⟩ := h
  by_cases hk : k < s.ctxs.length
  · exact hctx _ (ctx_mem hk)
  · exact ctx_beyond (Nat.le_of_not_lt hk)

/-- The invariant of a state that stands at its reset values (R186, R187). -/
theorem inv_of_blockAtReset {s : State} (hs : s.slot = 0) (h : BlockAtReset s) : Inv s := by
  obtain ⟨hready, hinit, howner, hxfer, -, -, -, -, -, hlen, hctx, hcs, hsclk⟩ := id h
  exact {
    ctx_count := hlen
    before_init := fun _ => ⟨hready, howner⟩
    after_init := by simp [hinit]
    owner_claimed := by simp [howner]
    claimed_owner := fun k hk => by rw [ctx_blockAtReset h] at hk; cases hk
    xfer_claimed := by simp [hxfer]
    cs_xfer := by rw [hcs, hxfer]; rfl
    slot_zero := fun _ => hs
    sclk_idle := hsclk
    ctx_inv := fun c hm => by rw [hctx c hm]; exact ctxInv_reset _
    held_reset := fun _ => h }

theorem blockAtReset_atReset (cfg : Config) : BlockAtReset (State.atReset cfg) := by
  refine ⟨rfl, rfl, rfl, rfl, rfl, rfl, rfl, rfl, rfl, ?_, fun c hc => ?_, rfl, rfl⟩
  · have := nCtx_pos cfg
    simp only [State.atReset, List.length_cons, List.length_replicate]
    omega
  · simp only [State.atReset, List.mem_cons, List.mem_replicate] at hc
    obtain h | ⟨-, h⟩ := hc <;> exact h

theorem inv_atReset (cfg : Config) : Inv (State.atReset cfg) := inv_of_blockAtReset rfl (blockAtReset_atReset cfg)

theorem inv_setRst {s : State} (level : Bool) (h : Inv s) : Inv (setRst level s) := by
  cases level with
  | false => exact inv_of_blockAtReset (s := setRst false s) rfl (blockAtReset_atReset s.cfg)
  | true => exact { h with held_reset := fun hr => by cases hr }

/-- The passing of time keeps what holds of each context: its wait only falls. -/
theorem ctxInv_waited {cfg : Config} {c : Ctx} (d : Nat) (h : CtxInv cfg c) : CtxInv cfg (waited d c) := by
  have hw : (waited d c).wait ≤ c.wait := by unfold waited; split <;> simp
  rw [waited_eq]
  exact { h with wait_le := hw.trans h.wait_le }

theorem mem_observed {s : State} {c : Ctx} (hc : c ∈ (observed s).ctxs) : ∃ d, ∃ c' ∈ s.ctxs, c = waited d c' := by
  simp only [observed, observe, passTime, List.mem_map, dropEvent_ctxs] at hc
  obtain ⟨c', hc', rfl⟩ := hc
  exact ⟨_, c', hc', rfl⟩

theorem blockAtReset_observed {s : State} (h : BlockAtReset s) : BlockAtReset (observed s) := by
  unfold BlockAtReset
  simp only [observed_ready, observed_initDone, observed_owner, observed_xfer, observed_beakR, observed_beakG,
    observed_beakB, observed_snap, observed_snapTime, observed_length, observed_cfg, observed_csN, observed_sclk]
  obtain ⟨hready, hinit, howner, hxfer, hr, hg, hb, hsnap, htime, hlen, hctx, hcs⟩ := h
  refine ⟨hready, hinit, howner, hxfer, hr, hg, hb, hsnap, htime, hlen, fun c hc => ?_, hcs⟩
  obtain ⟨d, c', hc', rfl⟩ := mem_observed hc
  rw [hctx c' hc']
  rfl

theorem inv_observed {s : State} (h : Inv s) : Inv (observed s) where
  ctx_count := by simpa using h.ctx_count
  before_init := by simpa using h.before_init
  after_init := by simpa using h.after_init
  owner_claimed := by simpa using h.owner_claimed
  claimed_owner := by simpa using h.claimed_owner
  xfer_claimed := by simpa using h.xfer_claimed
  cs_xfer := by simpa using h.cs_xfer
  slot_zero := by simpa using h.slot_zero
  sclk_idle := by simpa using h.sclk_idle
  ctx_inv c hc := by
    obtain ⟨d, c', hc', rfl⟩ := mem_observed hc
    rw [observed_cfg]
    exact ctxInv_waited d (h.ctx_inv c' hc')
  held_reset hr := blockAtReset_observed (h.held_reset (by simpa using hr))

theorem rstN_atStep {s : State} {k : Nat} (hk : CtxSteps s k) : (atStep s k).rstN = true := by
  obtain ⟨hr, -, -⟩ := hk
  rw [atStep_rstN, hr]

theorem inv_atStep {s : State} (k : Nat) (h : Inv s) : Inv (atStep s k) := { inv_observed h with }

/-! ### A write of one context that neither takes nor leaves the claim -/

theorem inv_updCtx {s : State} {k : Nat} {f : Ctx → Ctx} (h : Inv s) (hr : s.rstN = true)
    (hp : (f (s.ctx k)).phase = (s.ctx k).phase
      ∨ ((s.ctx k).phase.claimed = false ∧ (f (s.ctx k)).phase.claimed = false))
    (hf : CtxInv s.cfg (f (s.ctx k))) : Inv (s.updCtx k f) := by
  have hphase (j : Nat) : ((s.updCtx k f).ctx j).phase = (s.ctx j).phase
      ∨ ((s.ctx j).phase.claimed = false ∧ ((s.updCtx k f).ctx j).phase.claimed = false) := by
    obtain hj | ⟨rfl, -, hj⟩ := ctx_updCtx_or s k j f
    · exact .inl (by rw [hj])
    · rwa [hj]
  have hclaimed (j : Nat) : ((s.updCtx k f).ctx j).phase.claimed = (s.ctx j).phase.claimed := by
    obtain hj | ⟨h1, h2⟩ := hphase j
    · rw [hj]
    · rw [h1, h2]
  exact { h with
    ctx_count := by simpa using h.ctx_count
    owner_claimed := fun j hj => by rw [hclaimed]; exact h.owner_claimed j hj
    claimed_owner := fun j hj => h.claimed_owner j (by rwa [hclaimed] at hj)
    xfer_claimed := fun hx => by
      obtain ⟨j, ho, hj⟩ := h.xfer_claimed hx
      obtain h' | ⟨h', -⟩ := hphase j
      · exact ⟨j, ho, h'.trans hj⟩
      · rw [hj] at h'; cases h'
    ctx_inv := fun c hc => by
      obtain hc | ⟨-, rfl⟩ := mem_updCtx hc
      · exact h.ctx_inv c hc
      · exact hf
    held_reset := fun h' => by rw [updCtx_rstN, hr] at h'; cases h' }

theorem ctxInv_ctxWrite {cfg : Config} {c : Ctx} (off : Nat) (w : Word) (h : CtxInv cfg c) :
    CtxInv cfg (ctxWrite off w c) := by
  have hp := ctxWrite_run off w c
  rw [ctxWrite_frame]
  obtain ⟨hp, hb⟩ | ⟨-, hp, hb⟩ := hp
  · exact ⟨by rw [hp, hb]; exact h.busy_iff, h.polls_lt, by rw [hp]; exact h.latched, h.wait_le⟩
  · exact ⟨by rw [hp, hb]; decide, h.polls_lt, by rw [hp]; exact fun h => absurd h (by decide), h.wait_le⟩

theorem inv_hostAccess {s t : State} {a : HostAccess} (h : Inv s) (ht : hostAccess a s = .next t) : Inv t := by
  obtain ⟨v, rfl⟩ | rfl | ⟨b, w, -, hr, -, -, rfl⟩ := hostAccess_next ht
  · exact { h with }
  · exact h
  refine inv_updCtx h hr ?_ (ctxInv_ctxWrite _ w (inv_ctx h _))
  obtain ⟨hp, -⟩ | ⟨hb, hp, -⟩ := ctxWrite_run ((b.toNat - 0x100) % 0x40) w (s.ctx ((b.toNat - 0x100) / 0x40))
  · exact .inl hp
  · exact .inr ⟨by rw [inv_phase_idle h hb]; rfl, by rw [hp]; rfl⟩

/-! ### The operations of a step -/

/-- A context at the end of its op (R51). -/
theorem ctxInv_stop {cfg : Config} {c d : Ctx} (h : CtxInv cfg c) (hb : d.busy = false) (hp : d.phase = .idle)
    (hn : d.polls = 0) (hw : d.wait = c.wait) : CtxInv cfg d :=
  ⟨by simp [hb, hp], hn ▸ acqMax_pos cfg, by rw [hp]; exact fun h => absurd h (by decide), hw ▸ h.wait_le⟩

/-- A busy context in a phase after its decode step, with a LAT that fits it (R48, R50). -/
theorem ctxInv_latched {cfg : Config} {c : Ctx} {l : Latch} (p : Phase) (hp : c.phase = p) (hlat : p.latched = true)
    (hb : c.busy = true) (hl : c.lat = some l) (hfit : p.fits l.op = true) (hn : c.polls < cfg.acqMax)
    (hw : c.wait ≤ Config.pollInterval) : CtxInv cfg c := by
  subst hp
  exact ⟨⟨fun _ hi => absurd hlat (by rw [hi]; decide), fun _ => hb⟩, hn, fun _ => ⟨l, hl, hfit⟩, hw⟩

/-- LAT and BUSY of a context that is past its decode step. -/
theorem inv_latched {s : State} (h : Inv s) {k : Nat} {p : Phase} (hp : (s.ctx k).phase = p) (hlat : p.latched = true) :
    (s.ctx k).busy = true ∧ ∃ l, (s.ctx k).lat = some l ∧ p.fits l.op = true := by
  subst hp
  exact ⟨(inv_ctx h k).busy_iff.mpr fun hi => absurd hlat (by rw [hi]; decide),
    (inv_ctx h k).latched hlat⟩

theorem inv_shiftByte {s : State} (h : Inv s) (hx : s.xfer = true) : Inv (shiftByte s) :=
  { h with slot_zero := fun hx' => by rw [shiftByte, exchange_xfer, hx] at hx'; cases hx' }

section
variable {s : State} (h : Inv s) (hr : s.rstN = true)
include h hr

theorem inv_finish (code : RCode) (v : Int) (hp : s.me.phase.claimed = false) : Inv (finish code v s) :=
  inv_updCtx h hr (.inr ⟨hp, rfl⟩) (ctxInv_stop (inv_ctx h s.cur) rfl rfl rfl rfl)

theorem inv_latch (l : Latch) (hp : s.me.phase = .decode) : Inv (latch l s) := by
  refine inv_updCtx h hr (.inl rfl) { inv_ctx h s.cur with latched := fun hl => ?_ }
  have : s.me.phase.latched = true := hl
  rw [hp] at this
  cases this

theorem inv_goPoll {l : Latch} (hp : s.me.phase.claimed = false) (hb : s.me.busy = true) (hl : s.me.lat = some l)
    (hi : l.op.opClass ≠ .localOp) : Inv (goPoll s) :=
  inv_updCtx h hr (.inr ⟨hp, rfl⟩)
    (ctxInv_latched .poll rfl rfl hb hl (by simpa [Phase.fits] using hi) (acqMax_pos _) (Nat.zero_le _))

theorem inv_goAge {l : Latch} (hp : s.me.phase.claimed = false) (hb : s.me.busy = true) (hl : s.me.lat = some l)
    (hi : l.op.opClass = .cache) : Inv (goAge s) :=
  inv_updCtx h hr (.inr ⟨hp, rfl⟩)
    (ctxInv_latched .age rfl rfl hb hl (by simpa [Phase.fits] using hi) (inv_ctx h s.cur).polls_lt
      (inv_ctx h s.cur).wait_le)

theorem inv_initEffect : Inv (initEffect s) := by
  rw [initEffect_eq]
  exact { h with
    before_init := fun hi => by cases hi
    after_init := fun _ => by
      cases hi : s.initDone with
      | false => simp [(h.before_init hi).2]
      | true => simpa [hi] using h.after_init hi
    held_reset := fun hr' => by rw [hr] at hr'; cases hr' }

theorem inv_claim (hc : s.cur < s.ctxs.length) (hready : s.ready = true) (hp : s.me.phase = .poll) : Inv (claim s) := by
  obtain ⟨hinit, ho⟩ := (inv_ready_iff h).mp hready
  obtain ⟨hfree, hx⟩ := inv_free h ho
  have hother (k : Nat) (hk : k ≠ s.cur) : ((claim s).ctx k).phase.claimed = false := by
    rw [claim_ctx_ne hk]; exact hfree k
  have hci := inv_ctx h s.cur
  obtain ⟨hb, l, hl, hfit⟩ := inv_latched h hp rfl
  exact { h with
    ctx_count := by simpa using h.ctx_count
    before_init := fun hi => by rw [claim_initDone, hinit] at hi; cases hi
    after_init := fun _ => by simp
    owner_claimed := fun k hk => by
      obtain rfl : s.cur = k := by simpa using hk
      exact (congrArg (fun c => c.phase.claimed) (claim_me hc)).trans rfl
    claimed_owner := fun k hk => by
      by_cases hk' : k = s.cur
      · rw [hk', claim_owner]
      · rw [hother k hk'] at hk; cases hk
    xfer_claimed := fun hx' => by rw [claim_xfer, hx] at hx'; cases hx'
    ctx_inv := fun c hc' => by
      obtain hc' | ⟨-, rfl⟩ := mem_updCtx hc'
      · exact h.ctx_inv c hc'
      · exact ctxInv_latched .xfer rfl rfl hb hl hfit hci.polls_lt hci.wait_le
    held_reset := fun hr' => by rw [claim_rstN, hr] at hr'; cases hr' }

theorem inv_begun (build : Latch → State → Frame) (l : Latch) (ho : s.owner = some s.cur) (hp : s.me.phase = .xfer) :
    Inv (begun build l s) := by
  unfold begun
  split
  · exact h
  · exact { h with
      xfer_claimed := fun _ => ⟨s.cur, ho, hp⟩
      cs_xfer := rfl
      slot_zero := fun _ => rfl
      held_reset := fun hr' => by rw [beginFrame_rstN, hr] at hr'; cases hr' }

theorem inv_endFrame (hc : s.cur < s.ctxs.length) (ho : s.owner = some s.cur) (hp : s.me.phase = .xfer) :
    Inv (endFrame s) := by
  have hci := inv_ctx h s.cur
  obtain ⟨hb, l, hl, hfit⟩ := inv_latched h hp rfl
  exact { h with
    ctx_count := by simpa using h.ctx_count
    owner_claimed := fun k hk => by
      obtain rfl : s.cur = k := by simpa [ho] using hk
      exact (congrArg (fun c => c.phase.claimed) (endFrame_me hc)).trans rfl
    claimed_owner := fun k hk => by
      by_cases hk' : k = s.cur
      · rw [hk', endFrame_owner, ho]
      · rw [endFrame_ctx_ne hk'] at hk
        exact h.claimed_owner k hk
    xfer_claimed := fun hx => by cases hx
    cs_xfer := rfl
    slot_zero := fun _ => rfl
    ctx_inv := fun c hc' => by
      obtain hc' | ⟨-, rfl⟩ := mem_updCtx hc'
      · exact h.ctx_inv c hc'
      · exact ctxInv_latched .commit rfl rfl hb hl hfit hci.polls_lt hci.wait_le
    held_reset := fun hr' => by rw [endFrame_rstN, hr] at hr'; cases hr' }

theorem inv_byteStep (build : Latch → State → Frame) (l : Latch) (hc : s.cur < s.ctxs.length)
    (ho : s.owner = some s.cur) (hp : s.me.phase = .xfer) : Inv (byteStep build l s) := by
  have hb := inv_begun h hr build l ho hp
  rw [byteStep_eq]
  rw [begun_frame] at hb ⊢
  split
  · exact inv_endFrame (s := exchange _) { hb with } hr hc ho hp
  · exact inv_shiftByte hb rfl

/-- The claim is released as its holder finishes (R117). -/
theorem inv_finish_release (code : RCode) (v : Int) (hc : s.cur < s.ctxs.length) (ho : s.owner = some s.cur)
    (hp : s.me.phase = .commit) : Inv (finish code v (release s)) := by
  have hinit : s.initDone = true := by
    by_contra hi
    obtain ⟨-, hnone⟩ := h.before_init (by simpa using hi)
    simp [ho] at hnone
  have hx : s.xfer = false := by
    by_contra hx
    obtain ⟨k, hk, hkp⟩ := h.xfer_claimed (by simpa using hx)
    obtain rfl : s.cur = k := by simpa [ho] using hk
    rw [← State.me, hp] at hkp
    cases hkp
  exact { h with
    ctx_count := by simpa using h.ctx_count
    before_init := fun hi => by rw [finish_initDone, release_initDone, hinit] at hi; cases hi
    after_init := fun _ => by simp
    owner_claimed := fun k hk => by rw [finish_owner, release_owner] at hk; cases hk
    claimed_owner := fun k hk => by
      by_cases hk' : k = s.cur
      · subst hk'
        have hme := finish_me (s := release s) code v hc
        rw [State.me, finish_cur, release_cur] at hme
        rw [hme] at hk
        cases hk
      · rw [finish_ctx_ne (s := release s) _ _ hk', release_ctx] at hk
        have := h.claimed_owner k hk
        exact absurd (by simpa [ho] using this.symm) hk'
    xfer_claimed := fun hx' => by rw [finish_xfer, release_xfer, hx] at hx'; cases hx'
    ctx_inv := fun c hc' => by
      obtain hc' | ⟨-, rfl⟩ := mem_updCtx hc'
      · exact h.ctx_inv c hc'
      · exact ctxInv_stop (inv_ctx h s.cur) rfl rfl rfl rfl
    held_reset := fun hr' => by rw [finish_rstN, release_rstN, hr] at hr'; cases hr' }

theorem inv_commitFrame (k : Kind) : Inv (commitFrame k s) :=
  inv_updCtx (s := { s with snap := s.rx, snapTime := if k = .sensorRead then s.now else s.snapTime })
    { h with held_reset := fun hr' => by rw [hr] at hr'; cases hr' } hr (.inl rfl) { inv_ctx h s.cur with }

theorem inv_effect {i : Instr} {effect : Latch → State → State} (l : Latch)
    (he : OwnEffect i effect) : Inv (effect l s) := by
  rw [effect_frame l s he]
  exact { h with held_reset := fun hr' => by rw [hr] at hr'; cases hr' }

end

/-! ### Every step -/

/-- A move of a context's op keeps the invariant. -/
theorem inv_move {i : Instr} {s t : State} (h : Inv s) (hr : s.rstN = true) (hm : Move i s t) : Inv t := by
  have hc := move_cur_lt hm
  have hci := inv_ctx h s.cur
  have hfree {p : Phase} (hp : s.me.phase = p) (hf : p.claimed = false) : s.me.phase.claimed = false := hp ▸ hf
  have hbusy : s.me.busy = true := hci.busy_iff.mpr (move_phase_ne_idle hm)
  cases hm with
  | localDone l v hp | decodeStop l v hp =>
    refine inv_finish (inv_latch h hr l hp) hr _ _ ?_
    rw [latch_me l hc]
    exact hfree hp rfl
  | initDone l hp =>
    rw [initEffect_eq]
    have hi := inv_initEffect (inv_latch h hr l hp) hr
    rw [initEffect_eq] at hi
    refine inv_finish hi hr _ _ ?_
    exact (congrArg (fun c => c.phase.claimed) (latch_me l hc)).trans (hfree hp rfl)
  | decodePoll l hp hi hl =>
    have hme := latch_me l hc
    exact inv_goPoll (inv_latch h hr l hp) hr (by rw [hme]; exact hfree hp rfl) (by rw [hme]; exact hbusy)
      (congrArg Ctx.lat hme) (by rw [hl, hi]; decide)
  | decodeAge l hp hi hl =>
    have hme := latch_me l hc
    exact inv_goAge (inv_latch h hr l hp) hr (by rw [hme]; exact hfree hp rfl) (by rw [hme]; exact hbusy)
      (congrArg Ctx.lat hme) (by rw [hl, hi])
  | ageFresh code v hp => exact inv_finish h hr _ _ (hfree hp rfl)
  | agePoll hp =>
    obtain ⟨-, l, hl, hfit⟩ := inv_latched h hp rfl
    have hi : l.op.opClass = .cache := by simpa [Phase.fits] using hfit
    exact inv_goPoll h hr (hfree hp rfl) hbusy hl (by rw [hi]; decide)
  | pollClaim hp hi hready => exact inv_claim h hr hc hready hp
  | pollAgain hp hi hready hn =>
    have hlt : s.me.polls + 1 < s.cfg.acqMax := Nat.lt_of_le_of_ne hci.polls_lt hn
    exact inv_updCtx h hr (.inl rfl) { hci with polls_lt := hlt, wait_le := Nat.le_refl _ }
  | pollDrop v hp =>
    rw [finish, updMe_updMe]
    exact inv_updCtx h hr (.inr ⟨hfree hp rfl, rfl⟩) (ctxInv_stop hci rfl rfl rfl rfl)
  | byte build l hp hi ho => exact inv_byteStep h hr build l hc ho hp
  | commit l effect v hp hi ho hl he =>
    have hu := inv_effect (inv_commitFrame h hr l.kind) hr l he
    rw [effect_frame l _ he] at hu ⊢
    exact inv_finish_release hu hr _ _ (by simpa using hc) ho
      ((congrArg Ctx.phase (commitFrame_me l.kind hc)).trans hp)

end Sys2Proof.Proofs
end

section
open Sys2Proof Sys2Proof.Machine Sys2Proof.Claims Sys2Proof.Proofs

/-- Settles O16: State.atReset gives every field its reset value, and a legal configuration has a context. -/
theorem invAtReset : Obligations.InvAtReset := ⟨inv_atReset _, inv_atReset⟩

/-- Settles O17: the event, the host's accesses, the reset pin and each move of an op keep the invariant. -/
theorem invPreserved : Obligations.InvPreserved := by
  intro s t h hstep
  cases step_move hstep with
  | quiet => exact inv_observed h
  | host a _ _ ht => exact inv_hostAccess (inv_observed h) ht
  | illegal k e hk hp =>
    exact inv_finish (inv_atStep k h) (rstN_atStep hk) _ _ (by rw [atStep_me, observed_ctx_phase, hp]; rfl)
  | decode k i _ hk _ _ ht | latched k l _ hk _ _ _ ht =>
    exact inv_move (inv_atStep k h) (rstN_atStep hk) (exec_move ht)
  | rst level => exact inv_setRst level (inv_observed h)

/-- Settles O19: under the invariant the owner is the one context in a claimed phase; a successful poll needs a free
bus, and of the moves only a commit gives the claim up. -/
theorem claimHeldUntilRelease : Obligations.ClaimHeldUntilRelease := by
  intro s t h hstep
  refine ⟨fun j k hj hk => Option.some.inj ((h.claimed_owner j hj).symm.trans (h.claimed_owner k hk)), ?_⟩
  obtain ⟨hreset, rfl⟩ | ⟨-, ⟨-, -, howner⟩, -, ⟨hxfer, -⟩, -⟩ | ⟨k, i, hk, -, hm⟩ := step_shape hstep
  · exact ⟨fun _ _ => .inr ⟨rfl, .inl hreset⟩, fun _ _ ht => (nomatch ht), fun _ ht => (nomatch ht)⟩
  · exact ⟨fun _ ho => .inl (howner.trans ho), fun _ ho ht => (by rw [howner, ho] at ht; cases ht),
      fun hx ht => (by rw [hxfer, hx] at ht; cases ht)⟩
  have howner := move_owner_cases hm
  have hxfer (hx : s.xfer = false) (ht : t.xfer = true) : (s.ctx k).phase = .xfer := by
    by_contra hp
    obtain ⟨hxfer, -⟩ := move_transportKept hm (by simpa using hp)
    rw [hxfer, atStep_xfer, hx] at ht
    cases ht
  have hstart (hp : (s.ctx k).phase = .xfer) : s.owner = some k := by
    simpa using move_xfer_owner hm (by simpa using hp)
  simp only [atStep_owner, atStep_me, observed_ctx_phase, atStep_ready, atStep_cur] at howner
  obtain howner | ⟨hp, hready, htready, htowner⟩ | ⟨hp, ho, htready, htowner⟩ := howner
  · exact ⟨fun _ ho => .inl (howner.trans ho), fun _ ho ht => (by rw [howner, ho] at ht; cases ht),
      fun hx ht => ⟨k, hk, hstart (hxfer hx ht), howner.trans (hstart (hxfer hx ht))⟩⟩
  · obtain ⟨-, hfree⟩ := (inv_ready_iff h).mp hready
    refine ⟨fun _ ho => (by rw [hfree] at ho; cases ho), fun j _ ht => ?_, fun hx ht => ?_⟩
    · obtain rfl : k = j := Option.some.inj (htowner.symm.trans ht)
      exact ⟨hk, hp, hready, htready⟩
    · rw [hp] at hxfer; cases hxfer hx ht
  · refine ⟨fun j ho' => ?_, fun j _ ht => (by rw [htowner] at ht; cases ht), fun hx ht => ?_⟩
    · obtain rfl : k = j := Option.some.inj (ho.symm.trans ho')
      exact .inr ⟨htowner, .inr ⟨hk, hp, htready⟩⟩
    · rw [hp] at hxfer; cases hxfer hx ht

/-- Settles O20: the value is two clauses of the invariant, and of the moves only the first INIT, a successful poll and
a commit write G.READY. -/
theorem readyHasThreeWriters : Obligations.ReadyHasThreeWriters := by
  refine ⟨fun s h => inv_ready_iff h, fun s t hstep hne => ?_⟩
  obtain ⟨hreset, -⟩ | ⟨-, ⟨hready, -, -⟩, -⟩ | ⟨k, i, hk, hrun, hm⟩ := step_shape hstep
  · exact .inl hreset
  · exact absurd hready hne
  refine .inr ⟨k, hk, ?_⟩
  have hready := move_ready_cases hm
  simp only [atStep_owner, atStep_me, observed_ctx_phase, atStep_ready, atStep_cur, atStep_initDone] at hready
  obtain h | ⟨hp, rfl, hinit, h⟩ | h | h := hready
  · exact absurd h hne
  · obtain ⟨-, hd⟩ | ⟨hl, -⟩ := hrun
    · exact .inl ⟨hp, hd, hinit, h⟩
    · rw [hp] at hl; cases hl
  · exact .inr (.inl h)
  · exact .inr (.inr h)

end

section
/-! SUPPORT. The step of a context that has one, and the count of the steps that its op has left (R48, R50, R175). -/

namespace Sys2Proof.Proofs

open Sys2Proof Sys2Proof.Machine Sys2Proof.Claims

/-! ### The step of a context -/

section
variable {s : State} {k : Nat} (hk : CtxSteps s k)
include hk

theorem getElem?_steps : (observed s).ctxs[k]? = some ((observed s).ctx k) := by
  obtain ⟨-, hlt, -⟩ := hk
  exact getElem?_observed hlt

theorem step_decoded {i : Instr} (hp : (s.ctx k).phase = .decode) (hd : decode (s.ctx k).cmd = .ok i) :
    step s = exec i (atStep s k) := by
  have hd' : decode (atStep s k).me.cmd = .ok i := by simpa using hd
  rw [step_ctx hk, ctxStep, getElem?_steps hk]
  simp only [observed_ctx_phase, hp]
  change decodeStep (atStep s k) = _
  rw [decodeStep, hd']

theorem step_reserved {e : DecodeError} (hp : (s.ctx k).phase = .decode) (hd : decode (s.ctx k).cmd = .error e) :
    step s = .next (finishIllegal (atStep s k)) := by
  have hd' : decode (atStep s k).me.cmd = .error e := by simpa using hd
  rw [step_ctx hk, ctxStep, getElem?_steps hk]
  simp only [observed_ctx_phase, hp]
  change decodeStep (atStep s k) = _
  rw [decodeStep, hd']

theorem step_latched {l : Latch} (hp : (s.ctx k).phase.latched = true) (hl : (s.ctx k).lat = some l)
    (hw : (s.ctx k).phase = .poll → ((observed s).ctx k).wait = 0) : step s = exec l.op (atStep s k) := by
  have hstep : latchedStep (atStep s k) = exec l.op (atStep s k) := withLatch_some (by simpa using hl) _
  rw [step_ctx hk, ctxStep, getElem?_steps hk, ← hstep]
  cases hphase : (s.ctx k).phase with
  | idle | decode => rw [hphase] at hp; cases hp
  | poll => simp only [observed_ctx_phase, hphase, hw hphase, if_true]; rfl
  | age | xfer | commit => simp only [observed_ctx_phase, hphase]; rfl

theorem step_waits (hp : (s.ctx k).phase = .poll) (hw : ((observed s).ctx k).wait ≠ 0) :
    step s = .next (observed s) := by
  rw [step_ctx hk, ctxStep, getElem?_steps hk]
  simp only [observed_ctx_phase, hp, hw, if_false]

theorem step_idle (hp : (s.ctx k).phase = .idle) : step s = .next (observed s) := by
  rw [step_ctx hk, ctxStep, getElem?_steps hk]
  simp only [observed_ctx_phase, hp]

/-- A due step runs the context's op, or ends a reserved one (R50, R91). -/
theorem step_due {t : State} (h : Inv s) (hdue : Due (atStep s k) k) (ht : step s = .next t) :
    t = finishIllegal (atStep s k) ∨ ∃ i, Move i (atStep s k) t := by
  obtain ⟨-, -, hne, hw⟩ := hdue
  simp only [atStep_ctx, observed_ctx_phase] at hne hw
  by_cases hp : (s.ctx k).phase = .decode
  · cases hd : decode (s.ctx k).cmd with
    | ok i => exact .inr ⟨i, exec_move ((step_decoded hk hp hd).symm.trans ht)⟩
    | error e =>
      rw [step_reserved hk hp hd] at ht
      cases ht
      exact .inl rfl
  · have hlat : (s.ctx k).phase.latched = true := by
      cases hphase : (s.ctx k).phase with
      | idle => exact absurd hphase hne
      | decode => exact absurd hphase hp
      | age | poll | xfer | commit => rfl
    obtain ⟨-, l, hl, -⟩ := inv_latched h rfl hlat
    exact .inr ⟨l.op, exec_move ((step_latched hk hlat hl hw).symm.trans ht)⟩

end

/-! ### The steps left -/

theorem stepsLeft_le (s : State) (k : Nat) : stepsLeft s k ≤ s.cfg.acqMax + 19 := by
  unfold stepsLeft
  split <;> omega

theorem stepsLeft_eq_zero_iff (s : State) (k : Nat) : stepsLeft s k = 0 ↔ (s.ctx k).phase = .idle := by
  have := s.slot.isLt
  unfold stepsLeft
  split <;> simp_all
  omega

section
variable {s : State} {k : Nat}

theorem stepsLeft_decode (hp : (s.ctx k).phase = .decode) : stepsLeft s k = s.cfg.acqMax + 19 := by rw [stepsLeft, hp]

theorem stepsLeft_age (hp : (s.ctx k).phase = .age) : stepsLeft s k = s.cfg.acqMax + 18 := by rw [stepsLeft, hp]

theorem stepsLeft_poll (hp : (s.ctx k).phase = .poll) : stepsLeft s k = s.cfg.acqMax - (s.ctx k).polls + 17 := by
  rw [stepsLeft, hp]

theorem stepsLeft_xfer (hp : (s.ctx k).phase = .xfer) : stepsLeft s k = 17 - s.slot.val := by rw [stepsLeft, hp]

theorem stepsLeft_commit (hp : (s.ctx k).phase = .commit) : stepsLeft s k = 1 := by rw [stepsLeft, hp]

end

/-- The count reads the context's phase and polls, and in a transaction its slot. -/
theorem stepsLeft_congr {s t : State} {k : Nat} (hcfg : t.cfg = s.cfg) (hp : (t.ctx k).phase = (s.ctx k).phase)
    (hn : (t.ctx k).polls = (s.ctx k).polls) (hslot : (s.ctx k).phase = .xfer → t.slot = s.slot) :
    stepsLeft t k = stepsLeft s k := by
  unfold stepsLeft
  rw [hcfg, hp, hn]
  split
  case h_5 hx => rw [hslot hx]
  all_goals rfl

theorem stepsLeft_atStep (s : State) (j k : Nat) : stepsLeft (atStep s j) k = stepsLeft s k :=
  stepsLeft_congr (by simp) (by simp) (by simp) (by simp)

/-- A step that ends the op lowers the count to 0. -/
theorem stepsLeft_lt_of_idle {s t : State} {k : Nat} (ht : (t.ctx k).phase = .idle) (hs : (s.ctx k).phase ≠ .idle) :
    stepsLeft t k < stepsLeft s k := by
  rw [(stepsLeft_eq_zero_iff t k).mpr ht]
  exact Nat.pos_of_ne_zero fun h => hs ((stepsLeft_eq_zero_iff s k).mp h)

theorem finish_phase {s : State} (code : RCode) (r : Int) (hc : s.cur < s.ctxs.length) :
    ((finish code r s).ctx s.cur).phase = .idle :=
  congrArg Ctx.phase (finish_me code r hc)

theorem endFrame_stepsLeft {s : State} (hc : s.cur < s.ctxs.length) : stepsLeft (endFrame s) s.cur = 1 :=
  stepsLeft_commit (congrArg Ctx.phase (endFrame_me hc))

theorem shiftByte_stepsLeft {s : State} {k : Nat} (hp : (s.ctx k).phase = .xfer) (hs : s.slot ≠ 15) :
    stepsLeft (shiftByte s) k = 16 - s.slot.val := by
  have hnext := val_slot_succ hs
  rw [stepsLeft_xfer (s := shiftByte s) hp]
  change 17 - (s.slot + 1).val = _
  omega

/-- A byte slot lowers the count by one: after the last there is only the commit step. -/
theorem byteStep_stepsLeft {s : State} (h : Inv s) (build : Latch → State → Frame) (l : Latch)
    (hc : s.cur < s.ctxs.length) (hp : s.me.phase = .xfer) :
    stepsLeft (byteStep build l s) s.cur < stepsLeft s s.cur := by
  have hslot : (begun build l s).slot = s.slot := by
    unfold begun
    split
    · rfl
    · exact (h.slot_zero (by simpa using ‹¬ s.xfer = true›)).symm
  have hlt := s.slot.isLt
  rw [stepsLeft_xfer hp, byteStep_eq]
  split
  case isTrue =>
    have hend := endFrame_stepsLeft (s := exchange (begun build l s)) (by simpa using hc)
    rw [exchange_cur, begun_cur] at hend
    omega
  case isFalse hne =>
    rw [shiftByte_stepsLeft (by rw [begun_ctx]; exact hp) hne, hslot]
    omega

/-- Each move of an op lowers the count of its context. -/
theorem move_stepsLeft {i : Instr} {s t : State} (h : Inv s) (hm : Move i s t) :
    stepsLeft t s.cur < stepsLeft s s.cur := by
  have hc := move_cur_lt hm
  have hne := move_phase_ne_idle hm
  have hpolls := (inv_ctx h s.cur).polls_lt
  cases hm with
  | localDone l r | decodeStop l r => exact stepsLeft_lt_of_idle (finish_phase (s := latch l s) _ _ (by simpa)) hne
  | initDone l =>
    rw [initEffect_eq]
    exact stepsLeft_lt_of_idle (finish_phase (s := { latch l s with initDone := true, ready := _ }) _ _ (by simpa)) hne
  | ageFresh => exact stepsLeft_lt_of_idle (finish_phase _ _ hc) hne
  | pollDrop => exact stepsLeft_lt_of_idle (finish_phase (s := s.updMe _) _ _ (by simpa)) hne
  | commit l effect r hp hi ho hl he =>
    rw [effect_frame l _ he]
    exact stepsLeft_lt_of_idle (finish_phase (s := release _) _ _ (by simpa)) hne
  | byte build l hp => exact byteStep_stepsLeft h build l hc hp
  | decodePoll l hp =>
    have ht : (goPoll (latch l s)).ctx s.cur = _ := goPoll_me (s := latch l s) (by simpa)
    rw [stepsLeft_decode hp, stepsLeft_poll (congrArg Ctx.phase ht), ht, goPoll_cfg, latch_cfg]
    omega
  | decodeAge l hp =>
    have ht : (goAge (latch l s)).ctx s.cur = _ := goAge_me (s := latch l s) (by simpa)
    rw [stepsLeft_decode hp, stepsLeft_age (congrArg Ctx.phase ht), goAge_cfg, latch_cfg]
    omega
  | agePoll hp =>
    have ht : (goPoll s).ctx s.cur = _ := goPoll_me hc
    rw [stepsLeft_age hp, stepsLeft_poll (congrArg Ctx.phase ht), ht, goPoll_cfg]
    omega
  | pollClaim hp =>
    have ht : (claim s).ctx s.cur = _ := claim_me hc
    rw [stepsLeft_poll hp, stepsLeft_xfer (congrArg Ctx.phase ht)]
    omega
  | pollAgain hp =>
    have ht := ctx_updCtx_self (fun c => { c with polls := c.polls + 1, wait := Config.pollInterval }) hc
    rw [stepsLeft_poll hp, State.updMe, stepsLeft_poll ((congrArg Ctx.phase ht).trans hp), ht, updCtx_cfg]
    change s.cfg.acqMax - ((s.ctx s.cur).polls + 1) + 17 < _
    omega

/-- No step of another context writes the slot of a context's transaction (R119). -/
theorem move_stepsLeft_ne {i : Instr} {s t : State} {k : Nat} (h : Inv s) (hm : Move i s t) (hk : k ≠ s.cur) :
    stepsLeft t k = stepsLeft s k := by
  obtain ⟨hcfg, -⟩ := move_outsideKept hm
  have hctx := move_ctx_ne hm hk
  refine stepsLeft_congr hcfg (by rw [hctx]) (by rw [hctx]) fun hx => ?_
  have hne : s.me.phase ≠ .xfer := fun hme => by
    have ho := h.claimed_owner k (by rw [hx]; rfl)
    exact hk (Option.some.inj (ho.symm.trans (move_xfer_owner hm hme)))
  obtain ⟨-, -, -, -, hslot, -⟩ := move_transportKept hm hne
  exact hslot

theorem move_stepsLeft_le {i : Instr} {s t : State} (h : Inv s) (hm : Move i s t) (k : Nat) :
    stepsLeft t k ≤ stepsLeft s k := by
  by_cases hk : k = s.cur
  · exact hk ▸ (move_stepsLeft h hm).le
  · exact (move_stepsLeft_ne h hm hk).le

theorem finishIllegal_stepsLeft_le {s : State} (hc : s.cur < s.ctxs.length) (k : Nat) :
    stepsLeft (finishIllegal s) k ≤ stepsLeft s k := by
  rw [finishIllegal]
  by_cases hk : k = s.cur
  · subst hk
    rw [(stepsLeft_eq_zero_iff _ _).mpr (finish_phase _ _ hc)]
    exact Nat.zero_le _
  · have hctx : (finish .illegal 0 s).ctx k = s.ctx k := finish_ctx_ne _ _ hk
    exact le_of_eq (stepsLeft_congr rfl (by rw [hctx]) (by rw [hctx]) fun _ => rfl)

/-- A host access starts an op only in a context that has none (R73). -/
theorem hostAccess_stepsLeft {s t : State} {a : HostAccess} {k : Nat} (h : Inv s) (ht : hostAccess a s = .next t)
    (hne : stepsLeft s k ≠ 0) : stepsLeft t k = stepsLeft s k := by
  obtain ⟨v, rfl⟩ | rfl | ⟨b, w, -, -, -, -, rfl⟩ := hostAccess_next ht
  · exact stepsLeft_congr rfl rfl rfl fun _ => rfl
  · rfl
  have hbusy : (s.ctx k).busy = true := (inv_ctx h k).busy_iff.mpr fun hp => hne ((stepsLeft_eq_zero_iff s k).mpr hp)
  obtain hctx | ⟨-, -, hctx⟩ := ctx_updCtx_or s ((b.toNat - 0x100) / 0x40) k (ctxWrite ((b.toNat - 0x100) % 0x40) w)
  · exact stepsLeft_congr rfl (by rw [hctx]) (by rw [hctx]) fun _ => rfl
  · obtain ⟨hp, -⟩ | ⟨hfree, -⟩ := ctxWrite_run ((b.toNat - 0x100) % 0x40) w (s.ctx k)
    · exact stepsLeft_congr rfl (by rw [hctx, hp]) (by rw [hctx, ctxWrite_frame]) fun _ => rfl
    · rw [hbusy] at hfree; cases hfree

theorem stepsLeft_setRst_le (level : Bool) (s : State) (k : Nat) : stepsLeft (setRst level s) k ≤ stepsLeft s k := by
  cases level with
  | true => exact (stepsLeft_congr rfl rfl rfl fun _ => rfl).le
  | false =>
    have hctx : (setRst false s).ctx k = Ctx.reset :=
      ctx_blockAtReset (s := setRst false s) (blockAtReset_atReset s.cfg) k
    rw [(stepsLeft_eq_zero_iff _ _).mpr (by rw [hctx]; rfl)]
    exact Nat.zero_le _

/-- No step of any agent raises the count of an op that runs. -/
theorem step_stepsLeft_le {s t : State} {k : Nat} (h : Inv s) (ht : step s = .next t) (hne : stepsLeft s k ≠ 0) :
    stepsLeft t k ≤ stepsLeft s k := by
  have hobs : stepsLeft (observed s) k = stepsLeft s k := stepsLeft_atStep s 0 k
  cases step_move ht with
  | quiet => exact hobs.le
  | host a _ _ hta => rw [← hobs] at hne ⊢; exact (hostAccess_stepsLeft (inv_observed h) hta hne).le
  | illegal j e hj =>
    obtain ⟨-, hlt, -⟩ := hj
    rw [← stepsLeft_atStep s j k]
    exact finishIllegal_stepsLeft_le (by simpa) k
  | decode j _ _ _ _ _ ht' | latched j _ _ _ _ _ _ ht' =>
    rw [← stepsLeft_atStep s j k]
    exact move_stepsLeft_le (inv_atStep j h) (exec_move ht') k
  | rst level => rw [← hobs]; exact stepsLeft_setRst_le level _ k

/-- A due step lowers the count of its context. -/
theorem step_stepsLeft_lt {s t : State} {k : Nat} (h : Inv s) (hk : CtxSteps s k) (hdue : Due (atStep s k) k)
    (ht : step s = .next t) : stepsLeft t k < stepsLeft s k := by
  rw [← stepsLeft_atStep s k k]
  obtain rfl | ⟨i, hm⟩ := step_due hk h hdue ht
  · obtain ⟨-, hlt, hne, -⟩ := hdue
    exact stepsLeft_lt_of_idle (finish_phase (s := atStep s k) _ _ hlt) hne
  · exact move_stepsLeft (inv_atStep k h) hm

end Sys2Proof.Proofs
end

section
open Sys2Proof Sys2Proof.Machine Sys2Proof.Claims Sys2Proof.Proofs

/-- Settles O5: the context exists and stands in its decode phase, so its step is the op of its CMD. -/
theorem stepRunsDecodedOp : Obligations.StepRunsDecodedOp := by
  intro s k i hk hp hd
  refine ⟨step_decoded hk hp hd, atStep_pins s k, fun e rest hs => ⟨by rw [nextEvent, hs], ?_⟩⟩
  change (dropEvent s).script = rest
  rw [dropEvent, hs]

/-- Settles O6: a later phase runs the op of LAT, unless its poll is not due; an idle context has no step. -/
theorem stepRunsLatchedOp : Obligations.StepRunsLatchedOp :=
  fun _ _ hk => ⟨fun _ hp hl hw => step_latched hk hp hl hw, step_waits hk, step_idle hk⟩

/-- Settles O21: the count is a measure of the op's phase, polls and slot, which each move of the op lowers and no other
step writes. -/
theorem opsFinishInBoundedSteps : Obligations.OpsFinishInBoundedSteps :=
  fun s h k => ⟨stepsLeft_le s k, stepsLeft_eq_zero_iff s k, fun _ ht =>
    ⟨step_stepsLeft_le h ht, fun hk hdue => step_stepsLeft_lt h hk hdue ht⟩⟩

end

section
/-! SUPPORT. The fields of a command frame from an op's own operands (R99, R100, R128 to R134): the integers of the model
are the rationals of the spec, rounded. -/

namespace Sys2Proof.Proofs

open Sys2Proof Sys2Proof.Machine Sys2Proof.Claims

/-! ### Rounding a product with a UQ16.16 constant -/

theorem rnd_uq16 (a : Nat) (k : Word) : rnd ((a : ℚ) * uq16 k) = ((a * k.toNat + 32768) / 65536 : Nat) := by
  have h := rnd_div_65536 ((a * k.toNat : Nat) : Int)
  have hq : (a : ℚ) * uq16 k = ((a * k.toNat : Nat) : Int) / 65536 := by
    rw [uq16]
    push_cast
    ring
  rw [hq, h, rnd16]
  omega

theorem ticks_eq (a : Nat) (k : Word) : (ticks a k : Int) = ticksOf a k := by
  rw [ticksOf, rnd_uq16, ticks]
  omega

theorem ticks_lt (a : Nat) (k : Word) : ticks a k < 2 ^ 24 := by
  rw [ticks]
  omega

theorem zeroTickGuard_eq (a : Nat) (k : Word) :
    zeroTickGuard (ticks a k) = if ticksOf a k = 0 then some .noxfer else none := by
  rw [← ticks_eq, zeroTickGuard]
  simp only [Int.natCast_eq_zero]

/-- The three bytes of a tick count below 2^24 (R99). -/
theorem tickBytes_eq {t : Nat} (h : t < 2 ^ 24) : tickBytes t = [(BitVec.ofNat 24 t).extractLsb' 16 8,
    (BitVec.ofNat 24 t).extractLsb' 8 8, (BitVec.ofNat 24 t).extractLsb' 0 8] := by
  have hbyte (k : Nat) : BitVec.ofInt 8 ((t / 2 ^ k : Nat) : Int) = (BitVec.ofNat 24 t).extractLsb' k 8 := by
    apply BitVec.eq_of_toNat_eq
    rw [BitVec.extractLsb'_toNat, BitVec.toNat_ofNat, Nat.mod_eq_of_lt h, Nat.shiftRight_eq_div_pow,
      BitVec.ofInt_natCast, BitVec.toNat_ofNat]
  rw [← hbyte, ← hbyte, ← hbyte]
  simp [tickBytes]

theorem speedMagnitude_lt (cfg : Config) (p : Int) : speedMagnitude cfg p < 128 := by
  simp only [speedMagnitude]
  omega

theorem speedMagnitude_eq (cfg : Config) (p : Int) : (speedMagnitude cfg p : Int) =
    min (if rnd ((p.natAbs : ℚ) * uq16 cfg.kSpd) ≠ 0 ∧ rnd ((p.natAbs : ℚ) * uq16 cfg.kSpd) < cfg.minMag.val
      then (cfg.minMag.val : Int) else rnd ((p.natAbs : ℚ) * uq16 cfg.kSpd)) 127 := by
  rw [rnd_uq16, speedMagnitude]
  split <;> split <;> omega

/-- A sign bit over seven bits of magnitude is their sum (R98). -/
theorem signBit_or : ∀ m < 128, 0x80#8 ||| BitVec.ofNat 8 m = BitVec.ofNat 8 (128 + m)
    ∧ 0x7F#8 &&& BitVec.ofNat 8 m = BitVec.ofNat 8 m := by
  decide

/-- The velocity byte over the rationals (R98, R131). -/
theorem convertSpeed_eq (cfg : Config) (p : Int) : convertSpeed cfg p = velocityOf cfg p := by
  obtain ⟨hor, hand⟩ := signBit_or _ (speedMagnitude_lt cfg p)
  simp only [velocityOf, ← speedMagnitude_eq, convertSpeed]
  split
  · rw [hor, ← BitVec.ofInt_natCast]
    push_cast
    rfl
  · rw [hand, zero_add, BitVec.ofInt_natCast]

theorem dirSign_mul_clampSpeed (dir : Bool) (spd : Int) : dirSign dir * clampSpeed spd = signedPercent dir spd := rfl

theorem clampSpeed_eq (spd : Int) : clampSpeed spd = signedPercent false spd := (one_mul _).symm

/-! ### Frames as lists of bytes -/

theorem colourByte_clampColour (c : Nat) : colourByte (clampColour c) = colourOf c := rfl

theorem colourByte_eq (c : Percent) : colourByte c = colourOf c.val := by
  rw [colourOf, Nat.min_eq_left (by omega)]
  rfl

theorem motorFrame_toList (cfg : Config) (vl vr : Byte) {t : Nat} (h : t < 2 ^ 24) :
    (motorFrame cfg vl (BitVec.ofNat 24 t) vr (BitVec.ofNat 24 t)).toList = motorBytes cfg vl vr t := by
  rw [motorBytes, tickBytes_eq h]
  rfl

theorem paddedFrame_toList (buf : Frame) {len : Nat} (fill : Byte) (h : len ≤ 16) :
    (paddedFrame buf len fill).toList = buf.toList.take len ++ List.replicate (16 - len) fill := by
  have hlen : (buf.toList.take len).length = len := by simp [h]
  apply List.ext_getElem
  · simp
    omega
  intro n hn _
  have hn' : n < 16 := by simpa using hn
  simp only [paddedFrame, Vector.getElem_toList, Vector.getElem_ofFn, List.getElem_append, hlen]
  split
  · simp
  · simp

end Sys2Proof.Proofs
end

section
/-! SUPPORT. What each phase of an op's skeleton does, op by op: the decode step of a plain bus op and of a cache op, and
the polls, byte slots and commit step that every bus op has (R50, R124, R147). -/

namespace Sys2Proof.Proofs

open Sys2Proof Sys2Proof.Machine Sys2Proof.Claims

/-! ### The decode step -/

/-- A plain bus op whose decode check stops it ends with the check's code (R124). -/
theorem plainOp_stops {i : Instr} {s : State} {l : Latch} {stop : Option RCode} {build : Latch → State → Frame}
    {effect : Latch → State → State} {code : RCode} (hi : exec i s = plainOp l stop build effect s)
    (hstop : stop = some code) (hs : Standing s .decode) : FinishesWith i s code 0 := by
  obtain ⟨hc, hp⟩ := hs
  exact ⟨finish code 0 (latch l s), by rw [hi, plainOp_decode _ _ _ _ hp, hstop, decodeEnd],
    finish_finished _ _ (by simpa), onlyOwnOp_finish_latch _ _ l hc⟩

/-- A plain bus op that its decode check lets pass goes to its polls with its LAT (R124). -/
theorem plainOp_goes_on {i : Instr} {s : State} {l : Latch} {stop : Option RCode} {build : Latch → State → Frame}
    {effect : Latch → State → State} (hi : exec i s = plainOp l stop build effect s) (hstop : stop = none)
    (hs : Standing s .decode) : ∃ t, exec i s = .next t ∧ OnlyOwnOp s t
      ∧ t.me = { s.me with lat := some l, phase := .poll, polls := 0, wait := 0 } := by
  obtain ⟨hc, hp⟩ := hs
  refine ⟨goPoll (latch l s), by rw [hi, plainOp_decode _ _ _ _ hp, hstop, decodeEnd], ?_, ?_⟩
  · rw [goPoll, latch, updMe_updMe]
    exact onlyOwnOp_updMe _ hc rfl rfl rfl rfl
  · rw [goPoll_me (by simpa), latch_me l hc]

/-- A cache op goes to its age step with its LAT (R147). -/
theorem cacheOp_goes_on {i : Instr} {s : State} {l : Latch} {maxAge : Latch → State → Word}
    {fresh drop : Latch → State → State} {value : Latch → State → Int}
    (hi : exec i s = cacheOp l maxAge fresh drop value s) (hs : Standing s .decode) : ∃ t, exec i s = .next t
      ∧ OnlyOwnOp s t ∧ t.me = { s.me with lat := some l, phase := .age } := by
  obtain ⟨hc, hp⟩ := hs
  refine ⟨goAge (latch l s), by rw [hi, cacheOp_decode _ _ _ _ _ hp], ?_, ?_⟩
  · rw [goAge, latch, updMe_updMe]
    exact onlyOwnOp_updMe _ hc rfl rfl rfl rfl
  · rw [goAge_me (by simpa), latch_me l hc]

/-! ### The skeleton of a bus op -/

/-- A bus op's own effect at its commit: only SET_SINGLE_LED has one (R118). -/
def busEffect (i : Instr) : Latch → State → State := if isSingleLed i then setSingleEffect else noEffect

theorem ownEffect_busEffect (i : Instr) : OwnEffect i (busEffect i) := by
  cases i with
  | setSingleLed p r g b => exact .inr ⟨⟨p, r, g, b, rfl⟩, rfl⟩
  | _ => exact .inl rfl

@[simp] theorem busEffect_cur (i : Instr) (l : Latch) (s : State) : (busEffect i l s).cur = s.cur := by
  rw [effect_frame l s (ownEffect_busEffect i)]

@[simp] theorem busEffect_ctxs (i : Instr) (l : Latch) (s : State) : (busEffect i l s).ctxs = s.ctxs := by
  rw [effect_frame l s (ownEffect_busEffect i)]

theorem busEffect_beak (i : Instr) (l : Latch) (s : State) :
    ((busEffect i l s).beakR, (busEffect i l s).beakG, (busEffect i l s).beakB) =
      if isSingleLed i = true ∧ l.port = 0 then (l.red, l.green, l.blue) else (s.beakR, s.beakG, s.beakB) := by
  unfold busEffect setSingleEffect
  cases isSingleLed i with
  | false => rfl
  | true =>
    by_cases h : l.port = 0
    · simp [h]
    · simp [h]

/-- LAT of a plain bus op after its decode step in state s: the op, its kind, and all that its frame is built from
(R48). -/
structure PlainLatch (i : Instr) (s : State) (l : Latch) : Prop where
  op : l.op = i
  kind : l.kind = .sensorRead ↔ readsSensors i = true
  beak : isBeakOp i = true → l.port = 0 ∧ (l.red, l.green, l.blue) = beakOperands i
  frame : decodeCheck i s.cfg = none → ∀ u : State, u.cfg = s.cfg →
    (latchedFrame i l u).toList = wireFrame i s.me.txbuf u

/-- A plain bus op is the skeleton of R124 for its LAT, its decode check, its frame and its effect. -/
theorem plain_skeleton {i : Instr} (hi : i.opClass = .plainBus) (s : State) :
    ∃ l, exec i s = plainOp l (decodeCheck i s.cfg) (latchedFrame i) (busEffect i) s ∧ PlainLatch i s l := by
  cases i with
  | stopAll | resetEncoders | readSensors =>
    exact ⟨_, rfl, rfl, by decide, by decide, fun _ _ _ => rfl⟩
  | setAllLeds r g b =>
    refine ⟨_, rfl, rfl, by simp [readsSensors, Instr.opClass], fun h => (nomatch h), fun _ u _ => ?_⟩
    simp only [latchedFrame, setAllFrame, colourByte_clampColour, colourByte_eq u.beakR, colourByte_eq u.beakG,
      colourByte_eq u.beakB]
    rfl
  | setSingleLed port r g b =>
    refine ⟨_, rfl, rfl, by simp [readsSensors, Instr.opClass], fun h => ?_, fun _ _ _ => rfl⟩
    obtain rfl : port = 0 := by simpa [isBeakOp] using h
    exact ⟨rfl, rfl⟩
  | move dir spd amt =>
    refine ⟨_, by rw [decodeCheck, ← zeroTickGuard_eq]; rfl, rfl, by simp [readsSensors, Instr.opClass],
      fun h => (nomatch h), fun _ u hu => ?_⟩
    simp only [latchedFrame, wireFrame, motorFrame_toList _ _ _ (ticks_lt _ _), dirSign_mul_clampSpeed, convertSpeed_eq,
      ticks_eq, hu]
  | turn dir spd amt =>
    refine ⟨_, by rw [decodeCheck, ← zeroTickGuard_eq]; rfl, rfl, by simp [readsSensors, Instr.opClass],
      fun h => (nomatch h), fun _ u hu => ?_⟩
    simp only [latchedFrame, wireFrame, motorFrame_toList _ _ _ (ticks_lt _ _), dirSign_mul_clampSpeed, convertSpeed_eq,
      ticks_eq, hu]
  | setWheels lspd rspd =>
    refine ⟨_, rfl, rfl, by simp [readsSensors, Instr.opClass], fun h => (nomatch h), fun _ u hu => ?_⟩
    simp only [latchedFrame, wireFrame, clampSpeed_eq, convertSpeed_eq, hu]
    exact motorFrame_toList _ _ _ (t := 0) (by decide)
  | xferRaw len fill =>
    refine ⟨_, rfl, rfl, by simp [readsSensors, Instr.opClass, rawLatch], fun h => (nomatch h), fun h u _ => ?_⟩
    have hlen : ¬ 16 < len := by
      intro hlt
      simp [decodeCheck, hlt] at h
    simp only [latchedFrame, rawLatch, wireFrame, if_neg hlen]
    exact paddedFrame_toList _ _ (by omega)
  | _ => cases hi

theorem plain_result {i : Instr} (hi : i.opClass = .plainBus) : busResult i = fun _ _ => 0 := by
  cases i with
  | stopAll | setAllLeds | setSingleLed | resetEncoders | readSensors | move | turn | setWheels | xferRaw => rfl
  | _ => cases hi

/-- The side of a SEL operand (R89). -/
theorem clampSide_eq (sel : Nat) : clampSide sel = (if sel = 0 then 0 else 1 : Fin 2).val := by
  unfold clampSide
  split
  · simp_all
  · exact Nat.min_eq_right (Nat.one_le_iff_ne_zero.mpr ‹_›)

/-- LAT of a cache op after its decode step: the op, its kind, its side and its greatest age (R89, R151). -/
structure CacheLatch (i : Instr) (l : Latch) : Prop where
  op : l.op = i
  kind : l.kind = .sensorRead
  sel : l.sel = (sideOf i).val
  maxAge : ∀ n, i = .refresh n → l.maxAge = BitVec.ofNat 32 n

/-- A cache op is the sequence of R147 for its LAT, its greatest age, its code on a fresh snapshot and its value. -/
theorem cache_skeleton {i : Instr} (hi : i.opClass = .cache) :
    ∃ (l : Latch) (m : Latch → Config → Word) (code : RCode), (∀ s, exec i s =
      cacheOp l (fun l' u => m l' u.cfg) (fun l' u => finish code (busResult i l' u) u)
        (fun l' u => finish .dropped (busResult i l' u) u) (busResult i) s) ∧ CacheLatch i l := by
  cases i with
  | refresh => exact ⟨_, fun l _ => l.maxAge, .noxfer, fun _ => rfl, rfl, rfl, rfl, fun _ h => by cases h; rfl⟩
  | getDistance | getBattery | getPosflag =>
    exact ⟨_, fun _ c => c.staleWindow, .ok, fun _ => rfl, rfl, rfl, rfl, fun _ h => nomatch h⟩
  | getLight sel | getLine sel | getEncoder sel =>
    exact ⟨_, fun _ c => c.staleWindow, .ok, fun _ => rfl, rfl, rfl, clampSide_eq sel, fun _ h => nomatch h⟩
  | _ => cases hi

theorem cache_frame {i : Instr} (hi : i.opClass = .cache) : latchedFrame i = fun _ u => readFrame u.cfg := by
  cases i with
  | refresh | getDistance | getLight | getLine | getBattery | getEncoder | getPosflag => rfl
  | _ => cases hi

theorem cache_effect {i : Instr} (hi : i.opClass = .cache) : busEffect i = noEffect := by
  cases i with
  | refresh | getDistance | getLight | getLine | getBattery | getEncoder | getPosflag => rfl
  | _ => cases hi

theorem isBus_cases {i : Instr} (hb : isBus i) : i.opClass = .plainBus ∨ i.opClass = .cache := by
  unfold isBus at hb
  cases h : i.opClass with
  | localOp => exact absurd h hb
  | plainBus => exact .inl rfl
  | cache => exact .inr rfl

/-! ### The later steps of a bus op -/

section
variable {i : Instr} {s : State} {l : Latch} (hb : isBus i) (hl : s.me.lat = some l)
include hb hl

theorem exec_poll (hp : s.me.phase = .poll) :
    exec i s = .next (pollStep (fun u => finish .dropped (busResult i l u) u) s) := by
  obtain hi | hi := isBus_cases hb
  · obtain ⟨l', h, -⟩ := plain_skeleton hi s
    rw [h, plainOp_poll _ _ _ _ hp, plain_result hi]
  · obtain ⟨l', m, code, h, -⟩ := cache_skeleton hi
    rw [h, cacheOp_poll _ _ _ _ _ hp hl]

theorem exec_xfer (hp : s.me.phase = .xfer) (ho : s.owner = some s.cur) :
    exec i s = .next (byteStep (latchedFrame i) l s) := by
  obtain hi | hi := isBus_cases hb
  · obtain ⟨l', h, -⟩ := plain_skeleton hi s
    rw [h, plainOp_xfer _ _ _ _ hp ho hl]
  · obtain ⟨l', m, code, h, -⟩ := cache_skeleton hi
    rw [h, cacheOp_xfer _ _ _ _ _ hp ho hl, cache_frame hi]

theorem exec_commit (hp : s.me.phase = .commit) (ho : s.owner = some s.cur) :
    exec i s = .next (finish .ok (busResult i l (release (busEffect i l (commitFrame l.kind s))))
      (release (busEffect i l (commitFrame l.kind s)))) := by
  obtain hi | hi := isBus_cases hb
  · obtain ⟨l', h, -⟩ := plain_skeleton hi s
    rw [h, plainOp_commit _ _ _ _ hp ho hl, plain_result hi]
  · obtain ⟨l', m, code, h, -⟩ := cache_skeleton hi
    rw [h, cacheOp_commit _ _ _ _ _ hp ho hl, cache_effect hi]
    rfl

end

/-- A bus op's value reads only the parameters, the snapshot and the beak (R147). -/
theorem busResult_finish (i : Instr) (l : Latch) (code : RCode) (r : Int) (s : State) :
    busResult i l (finish code r s) = busResult i l s := by
  cases i <;> rfl

end Sys2Proof.Proofs
end

section
open Sys2Proof Sys2Proof.Machine Sys2Proof.Claims Sys2Proof.Proofs

/-- Settles O32: NOP's work is its finish. -/
theorem nopCompletes : Obligations.NopCompletes :=
  fun _ hs => finishesWith_of_localOp { op := .nop } (value := fun _ => 0) rfl rfl hs

/-- Settles O33: INIT's effect sets INIT_DONE, and READY unless it was set before. -/
theorem initCompletes : Obligations.InitCompletes := by
  rintro s ⟨hc, hp⟩
  have hexec : exec .init s = .next (finish .ok 0 (initEffect (latch { op := .init } s))) :=
    localOp_decode { op := .init } (fun u => finish .ok 0 (initEffect u)) hp
  have hm := exec_move hexec
  have hphase {p : Phase} (hne : p ≠ .decode) : s.me.phase ≠ p := fun h => hne (h.symm.trans hp)
  refine ⟨_, hexec, ?_, ?_, ?_, move_owner hm (hphase (by decide)) (hphase (by decide)), move_ctxKept hm,
    (move_ownWrite hm).rxbuf (hphase (by decide)), move_cacheKept hm (hphase (by decide)),
    move_transportKept hm (hphase (by decide)), move_outsideKept hm⟩
  all_goals rw [initEffect_eq]
  · exact finish_finished (s := { latch _ s with initDone := true, ready := _ }) _ _ (by simpa)
  · intro h
    simp [h]
  · intro h
    simp [h]

/-- Settles O25: a plain bus op is its skeleton, whose decode step ends by the check or goes to the polls with LAT. -/
theorem plainOpDecodes : Obligations.PlainOpDecodes := by
  intro i s hi hs
  obtain ⟨l, hexec, hl⟩ := plain_skeleton hi s
  refine ⟨fun code hcode => plainOp_stops hexec hcode hs, fun hnone => ?_⟩
  obtain ⟨t, ht, hown, hme⟩ := plainOp_goes_on hexec hnone hs
  exact ⟨t, l, ht, hown, hme, hl.op, hl.kind, hl.beak, hl.frame hnone⟩

/-- Settles O26: a cache op's decode step only fills LAT and goes to its age step. -/
theorem cacheOpDecodes : Obligations.CacheOpDecodes := by
  intro i s hi hwf hs
  obtain ⟨l, m, code, hexec, hl⟩ := cache_skeleton hi
  obtain ⟨t, ht, hown, hme⟩ := cacheOp_goes_on (hexec s) hs
  refine ⟨t, l, ht, hown, hme, hl.op, hl.kind, hl.sel, ?_⟩
  rintro n rfl
  have hn : n < 65536 := by simpa [Instr.wellFormed, fitsHalf] using hwf
  rw [hl.maxAge n rfl, BitVec.toNat_ofNat]
  omega

/-- Settles O27: the commit step is a move whose writes are the obligation's, and its value is read where they stand. -/
theorem commitCompletesBusOp : Obligations.CommitCompletesBusOp := by
  rintro i l s hb ⟨hc, hp⟩ ho hl
  have hexec := exec_commit hb hl hp ho
  have hm := exec_move hexec
  have hphase {p : Phase} (hne : p ≠ .commit) : s.me.phase ≠ p := fun h => hne (h.symm.trans hp)
  obtain ⟨hsnap, hrx, hready, howner, -, l', hl', htime⟩ := move_commit_writes hm hp
  obtain rfl : l = l' := Option.some.inj (hl.symm.trans hl')
  refine ⟨_, hexec, ?_, hsnap, hrx, htime, ?_, hready, howner, ?_, (move_ownWrite hm).lat (hphase (by decide)),
    move_ctxKept hm, move_transportKept hm (hphase (by decide)), move_outsideKept hm⟩
  · rw [busResult_finish]
    exact finish_finished _ _ (by simpa using hc)
  · exact busEffect_beak i l (commitFrame l.kind s)
  · exact move_initDone hm (by rintro rfl; exact absurd rfl hb)

/-- Settles O34: LEN above 16 is a decode check, and otherwise LAT holds the padded copy of TXBUF. -/
theorem rawFrameIsNormalised : Obligations.RawFrameIsNormalised := by
  intro len fill s hs
  have hexec : exec (.xferRaw len fill) s = plainOp (rawLatch len fill s) (if 16 < len then some .rejected else none)
      (fun l _ => l.raw) noEffect s := rfl
  refine ⟨fun hlen => plainOp_stops hexec (if_pos hlen) hs, fun hlen => ?_⟩
  have hle : ¬ 16 < len := by omega
  obtain ⟨t, ht, hown, hme⟩ := plainOp_goes_on hexec (if_neg hle) hs
  refine ⟨t, rawLatch len fill s, ht, hown, by rw [hme], by rw [hme], rfl, rfl, fun j => ?_⟩
  simp [rawLatch, hle, paddedFrame]

end

section
/-! SUPPORT. The passing of time: how much of an elapsed time passes, and the wait it leaves in each context (R50 step 4,
R115, log 3). -/

namespace Sys2Proof.Proofs

open Sys2Proof Sys2Proof.Machine Sys2Proof.Claims

/-- A context that waits for a later poll. -/
def Waits (c : Ctx) : Prop := c.phase = .poll ∧ 0 < c.polls

theorem timeSlack_cons (c : Ctx) (cs : List Ctx) (dt : Nat) : timeSlack (c :: cs) dt =
    if c.phase = .poll ∧ 0 < c.polls then min (timeSlack cs dt) c.wait else timeSlack cs dt := rfl

theorem timeSlack_le (cs : List Ctx) (dt : Nat) : timeSlack cs dt ≤ dt := by
  induction cs with
  | nil => exact Nat.le_refl dt
  | cons c cs ih =>
    rw [timeSlack_cons]
    split
    · exact (Nat.min_le_left _ _).trans ih
    · exact ih

/-- No more time passes than a waiting context has left. -/
theorem timeSlack_le_wait {cs : List Ctx} {c : Ctx} (dt : Nat) (hc : c ∈ cs) (hw : Waits c) :
    timeSlack cs dt ≤ c.wait := by
  induction cs with
  | nil => cases hc
  | cons d cs ih =>
    rw [timeSlack_cons]
    cases hc with
    | head =>
      obtain ⟨hp, hn⟩ := hw
      rw [if_pos ⟨hp, hn⟩]
      exact Nat.min_le_right _ _
    | tail _ hc =>
      split
      · exact (Nat.min_le_left _ _).trans (ih hc)
      · exact ih hc

/-- All of the time passes, or exactly what some waiting context has left. -/
theorem timeSlack_cases (cs : List Ctx) (dt : Nat) :
    timeSlack cs dt = dt ∨ ∃ c ∈ cs, Waits c ∧ timeSlack cs dt = c.wait := by
  induction cs with
  | nil => exact .inl rfl
  | cons d cs ih =>
    rw [timeSlack_cons]
    split
    case isTrue hw =>
      obtain hle | hle := Nat.le_total (timeSlack cs dt) d.wait
      · rw [Nat.min_eq_left hle]
        exact ih.imp_right fun ⟨c, hc, h⟩ => ⟨c, .tail _ hc, h⟩
      · rw [Nat.min_eq_right hle]
        exact .inr ⟨d, .head _, hw, rfl⟩
    case isFalse => exact ih.imp_right fun ⟨c, hc, h⟩ => ⟨c, .tail _ hc, h⟩

theorem passTime_ctx (dt : Nat) (s : State) (k : Nat) :
    (passTime dt s).ctx k = waited (timeSlack s.ctxs dt) (s.ctx k) := by
  by_cases h : k < s.ctxs.length
  · simp [passTime, State.ctx, List.getElem?_eq_getElem h]
  · rw [ctx_beyond (by simpa [passTime] using h), ctx_beyond (Nat.le_of_not_lt h)]
    rfl

theorem passTime_wait {s : State} {k : Nat} (dt : Nat) (hp : (s.ctx k).phase = .poll) :
    ((passTime dt s).ctx k).wait = (s.ctx k).wait - timeSlack s.ctxs dt := by
  rw [passTime_ctx, waited, if_pos hp]

/-- A context that waits exists. -/
theorem mem_of_waits {s : State} {k : Nat} (hw : Waits (s.ctx k)) : s.ctx k ∈ s.ctxs := by
  by_cases hk : k < s.ctxs.length
  · exact ctx_mem hk
  · rw [ctx_beyond (Nat.le_of_not_lt hk)] at hw
    obtain ⟨hp, -⟩ := hw
    cases hp

theorem exists_ctx_of_mem {s : State} {c : Ctx} (hc : c ∈ s.ctxs) : ∃ k, s.ctx k = c := by
  obtain ⟨k, hk, rfl⟩ := List.mem_iff_getElem.mp hc
  exact ⟨k, by simp [State.ctx, List.getElem?_eq_getElem hk]⟩

end Sys2Proof.Proofs
end

section
open Sys2Proof Sys2Proof.Machine Sys2Proof.Claims Sys2Proof.Proofs

/-- Settles O24: the elapsed time is cut at the least wait of a later poll, and the waits all fall by what is left. -/
theorem pollsAreSpaced : Obligations.PollsAreSpaced := by
  refine ⟨rfl, ?_, fun s dt => ⟨timeSlack s.ctxs dt, timeSlack_le _ _, rfl, fun k hp hn => ?_, ?_⟩,
    fun s k hk hp hw => step_waits hk hp hw⟩
  · rintro i l s hb ⟨hc, hp⟩ hl hr hn
    have hexec := exec_poll hb hl hp
    rw [pollStep, if_neg (by simp [hr]), if_neg hn] at hexec
    refine ⟨_, hexec, ?_⟩
    rw [me_updMe _ hc]
    exact ⟨hp, Nat.succ_pos _, rfl⟩
  · have hle := timeSlack_le_wait dt (mem_of_waits ⟨hp, hn⟩) ⟨hp, hn⟩
    rw [passTime_wait dt hp]
    omega
  · obtain h | ⟨c, hc, ⟨hp, hn⟩, h⟩ := timeSlack_cases s.ctxs dt
    · exact .inl h
    · obtain ⟨k, rfl⟩ := exists_ctx_of_mem hc
      exact .inr ⟨k, hp, hn, by rw [passTime_wait dt hp, h, Nat.sub_self]⟩

end

section
/-! SUPPORT. The run of a transaction's byte slots: what holds between two of them, from the claim to the last byte (R109
to R112, log 4). -/

namespace Sys2Proof.Proofs

open Sys2Proof Sys2Proof.Machine Sys2Proof.Claims

/-- Running the inputs of two lists in a row. -/
theorem opRun_append {i : Instr} {xs : List StepInput} {s t : State} (h : opRun i xs s = .next t)
    (ys : List StepInput) : opRun i (xs ++ ys) s = opRun i ys t := by
  induction xs generalizing s with
  | nil => cases h; rfl
  | cons x xs ih =>
    simp only [opRun, List.cons_append] at h ⊢
    cases hx : exec i (s.withInput x) with
    | next u => rw [hx] at h; exact ih h
    | fault r => rw [hx] at h; cases h
    | refused r => rw [hx] at h; cases h

theorem opRun_singleton {i : Instr} {x : StepInput} {s t : State} (h : exec i (s.withInput x) = .next t) :
    opRun i [x] s = .next t := by
  simp only [opRun, h]

/-- The frame a bus op sends reads the parameters and the beak of the state, and nothing else (R124). -/
theorem latchedFrame_congr (i : Instr) (l : Latch) {s u : State} (hcfg : u.cfg = s.cfg) (hr : u.beakR = s.beakR)
    (hg : u.beakG = s.beakG) (hb : u.beakB = s.beakB) : latchedFrame i l u = latchedFrame i l s := by
  unfold latchedFrame
  rw [hcfg, hr, hg, hb]

/-- State u stands between two byte slots of the transaction that op i starts in state s, the bytes ms received so far. -/
structure InSlots (i : Instr) (l : Latch) (s : State) (ms : List Byte) (u : State) : Prop where
  frame : u = { s with
    now := u.now, pins := u.pins, xfer := u.xfer, csN := !u.xfer, tx := u.tx, rx := u.rx, slot := u.slot
    slotOut := u.slotOut }
  slot : u.slot.val = ms.length
  received : u.rx.toList.take ms.length = ms
  started : ms ≠ [] → u.xfer = true
  sent : u.xfer = true → u.tx = latchedFrame i l s

/-- Storing the next byte. -/
theorem take_set_succ {α : Type} {xs : List α} {n : Nat} (x : α) (h : n < xs.length) :
    (xs.set n x).take (n + 1) = xs.take n ++ [x] := by
  rw [List.take_add_one, List.getElem?_set_self h, List.take_set_of_le (Nat.le_refl n)]
  rfl

section
variable {i : Instr} {l : Latch} {s u : State} {ms : List Byte}

theorem inSlots_nil (hx : s.xfer = false) (hcs : s.csN = true) (hslot : s.slot = 0) : InSlots i l s [] s where
  frame := by
    have h : (!s.xfer) = s.csN := by rw [hx, hcs]; rfl
    rw [h]
  slot := by rw [hslot]; rfl
  received := rfl
  started h := absurd rfl h
  sent h := by rw [hx] at h; cases h

variable (x : StepInput) (h : InSlots i l s ms u)
include h

theorem me_inSlots : (u.withInput x).me = s.me := by rw [h.frame]; rfl

theorem owner_inSlots : (u.withInput x).owner = s.owner := by rw [h.frame]; rfl

theorem cur_inSlots : (u.withInput x).cur = s.cur := by rw [h.frame]; rfl

/-- The state whose frame the next slot shifts: the first slot begins the transaction with the op's frame. -/
theorem begun_inSlots : begun (latchedFrame i) l (u.withInput x) = { s with
    now := x.now, pins := x.pins, xfer := true, csN := false, tx := latchedFrame i l s, rx := u.rx, slot := u.slot
    slotOut := u.slotOut } := by
  have hu := congrArg (State.withInput · x) h.frame
  cases hx : u.xfer with
  | true =>
    rw [begun, if_pos (show (u.withInput x).xfer = true from hx)]
    refine hu.trans ?_
    rw [hx, h.sent hx]
    rfl
  | false =>
    have hms : ms = [] := by
      by_contra hne
      rw [h.started hne] at hx
      cases hx
    have hslot : u.slot = 0 := Fin.ext (by rw [h.slot, hms]; rfl)
    have hframe : latchedFrame i l (u.withInput x) = latchedFrame i l s := by
      rw [h.frame]
      exact latchedFrame_congr i l rfl rfl rfl rfl
    rw [begun, if_neg (by simpa [State.withInput] using hx), hframe, hslot]
    exact congrArg (beginFrame _) hu

section
variable (hb : isBus i) (hp : s.me.phase = .xfer) (ho : s.owner = some s.cur) (hl : s.me.lat = some l)
include hb hp ho hl

theorem exec_inSlots : exec i (u.withInput x) = .next (byteStep (latchedFrame i) l (u.withInput x)) :=
  exec_xfer hb (by rw [me_inSlots x h, hl]) (by rw [me_inSlots x h, hp])
    (by rw [owner_inSlots x h, cur_inSlots x h, ho])

/-- A slot that is not the last leaves the transaction with one more byte received. -/
theorem exec_inSlots_next (hlt : ms.length < 15) :
    ∃ v, exec i (u.withInput x) = .next v ∧ InSlots i l s (ms ++ [x.pins.miso]) v := by
  have hne : u.slot ≠ 15 := fun he => by
    have h15 : 15 = ms.length := by rw [← h.slot, he]; rfl
    omega
  refine ⟨_, exec_inSlots x h hb hp ho hl, ?_⟩
  rw [byteStep_eq, begun_inSlots x h, if_neg hne]
  refine ⟨rfl, ?_, ?_, fun _ => rfl, fun _ => rfl⟩
  · rw [List.length_append, ← h.slot]
    exact val_slot_succ hne
  · have hlen : ms.length < u.rx.toList.length := by simp; omega
    change (u.rx.set u.slot.val x.pins.miso).toList.take _ = _
    rw [List.length_append, Vector.toList_set, h.slot]
    exact (take_set_succ _ hlen).trans (by rw [h.received])

/-- The last slot ends the transaction with every byte received (R109). -/
theorem exec_inSlots_last (hc : s.cur < s.ctxs.length) (hlen : ms.length = 15) : ∃ t, exec i (u.withInput x) = .next t
    ∧ t.tx = latchedFrame i l s ∧ t.rx.toList = ms ++ [x.pins.miso] ∧ t.csN = true ∧ t.xfer = false ∧ t.slot = 0
    ∧ t.me = { s.me with phase := .commit } ∧ CtxKept s t ∧ CacheKept s t ∧ ArbiterKept s t := by
  have hlast : u.slot = 15 := Fin.ext (by rw [h.slot, hlen]; rfl)
  refine ⟨_, exec_inSlots x h hb hp ho hl, ?_⟩
  rw [byteStep_eq, begun_inSlots x h, if_pos hlast]
  refine ⟨rfl, ?_, rfl, rfl, rfl, endFrame_me hc, ctxKept_updMe _ hc rfl rfl rfl rfl rfl, ⟨rfl, rfl, rfl, rfl, rfl⟩,
    ⟨rfl, rfl, rfl⟩⟩
  have hlt : ms.length < u.rx.toList.length := by simp [hlen]
  change (u.rx.set u.slot.val x.pins.miso).toList = _
  have hall : (u.rx.toList.set ms.length x.pins.miso).take (ms.length + 1) = u.rx.toList.set ms.length x.pins.miso :=
    List.take_of_length_le (by simp [hlen])
  rw [Vector.toList_set, h.slot, ← hall, take_set_succ _ hlt, h.received]

end

end

/-- The run of up to 15 byte slots. -/
theorem opRun_inSlots {i : Instr} {l : Latch} {s : State} (hb : isBus i) (hp : s.me.phase = .xfer)
    (ho : s.owner = some s.cur) (hl : s.me.lat = some l) (h : InSlots i l s [] s) (ys : List StepInput)
    (hlen : ys.length ≤ 15) : ∃ u, opRun i ys s = .next u ∧ InSlots i l s (ys.map fun x => x.pins.miso) u := by
  induction ys using List.reverseRecOn with
  | nil => exact ⟨s, rfl, h⟩
  | append_singleton ys x ih =>
    rw [List.length_append, List.length_singleton] at hlen
    obtain ⟨u, hrun, hu⟩ := ih (by omega)
    obtain ⟨v, hv, hslots⟩ := exec_inSlots_next x hu hb hp ho hl (by simpa using hlen)
    refine ⟨v, by rw [opRun_append hrun, opRun_singleton hv], ?_⟩
    rw [List.map_append]
    exact hslots

end Sys2Proof.Proofs
end

section
open Sys2Proof Sys2Proof.Machine Sys2Proof.Claims Sys2Proof.Proofs

/-- Settles O29: by induction on the slots, the transaction keeps the op's frame and has received one byte for each. -/
theorem transactionSendsFrame : Obligations.TransactionSendsFrame := by
  rintro i l s xs hb ⟨hc, hp⟩ ho hl hx hcs hslot hlen
  have h0 : InSlots i l s [] s := inSlots_nil hx hcs hslot
  obtain ⟨ys, x, rfl⟩ : ∃ ys x, xs = ys ++ [x] :=
    ⟨_, _, (List.dropLast_append_getLast (List.ne_nil_of_length_eq_add_one hlen)).symm⟩
  rw [List.length_append, List.length_singleton] at hlen
  obtain ⟨u, hrun, hu⟩ := opRun_inSlots hb hp ho hl h0 ys (by omega)
  obtain ⟨t, ht, htx, hrx, htcs, htx', hts, hme, hctx, hcache, harb⟩ :=
    exec_inSlots_last x hu hb hp ho hl hc (by simpa using hlen)
  refine ⟨t, by rw [opRun_append hrun, opRun_singleton ht], htx, by rw [hrx, List.map_append]; rfl, htcs, htx', hts,
    hme, hctx, hcache, harb, fun as bs heq has hbs => ?_⟩
  have hlen' : as.length + bs.length = 16 := by
    rw [← List.length_append, ← heq, List.length_append, List.length_singleton, hlen]
  have hbs' := List.length_pos_iff.mpr hbs
  obtain ⟨v, hv, hslots⟩ := opRun_inSlots hb hp ho hl h0 as (by omega)
  have hxv := hslots.started (by simpa using has)
  exact ⟨v, hv, by rw [hslots.frame]; simp [hxv], hxv, by simpa using hslots.slot⟩

end

section
/-! SUPPORT. Rewriting CMD and TXBUF of the context that steps, and each operation of a step after the decode step: the
two commute, so a later step reads neither (R46, R48, R84). -/

namespace Sys2Proof.Proofs

open Sys2Proof Sys2Proof.Machine Sys2Proof.Claims

/-- Writes of context cur that commute. -/
theorem updMe_comm (s : State) {f g : Ctx → Ctx} (h : ∀ c, g (f c) = f (g c)) :
    (s.updMe f).updMe g = (s.updMe g).updMe f := by
  rw [updMe_updMe, updMe_updMe]
  exact congrArg s.updMe (funext h)

section
variable (w : Word) (f : Frame) (s : State)

theorem rewritten_me (hc : s.cur < s.ctxs.length) :
    (rewritten w f s).me = { s.me with cmd := w, txbuf := f } :=
  me_updMe _ hc

theorem finish_rewritten (code : RCode) (v : Int) : finish code v (rewritten w f s) = rewritten w f (finish code v s) :=
  updMe_comm s fun _ => rfl

theorem goPoll_rewritten : goPoll (rewritten w f s) = rewritten w f (goPoll s) := updMe_comm s fun _ => rfl

theorem claim_rewritten : claim (rewritten w f s) = rewritten w f (claim s) :=
  updMe_comm { s with ready := false, owner := some s.cur } fun _ => rfl

theorem release_rewritten : release (rewritten w f s) = rewritten w f (release s) := rfl

theorem endFrame_rewritten : endFrame (rewritten w f s) = rewritten w f (endFrame s) :=
  updMe_comm { s with xfer := false, csN := true, slot := 0 } fun _ => rfl

theorem commitFrame_rewritten (k : Kind) : commitFrame k (rewritten w f s) = rewritten w f (commitFrame k s) :=
  updMe_comm { s with snap := s.rx, snapTime := if k = Kind.sensorRead then s.now else s.snapTime } fun _ => rfl

theorem busEffect_rewritten (i : Instr) (l : Latch) :
    busEffect i l (rewritten w f s) = rewritten w f (busEffect i l s) := by
  unfold busEffect setSingleEffect
  cases isSingleLed i with
  | false => rfl
  | true =>
    by_cases h : l.port = 0
    · simp only [h, if_true]; rfl
    · simp only [h, if_true, if_false]

theorem busResult_rewritten (i : Instr) (l : Latch) : busResult i l (rewritten w f s) = busResult i l s := by
  cases i <;> rfl

theorem begun_rewritten (i : Instr) (l : Latch) :
    begun (latchedFrame i) l (rewritten w f s) = rewritten w f (begun (latchedFrame i) l s) := by
  have hframe : latchedFrame i l (rewritten w f s) = latchedFrame i l s := latchedFrame_congr i l rfl rfl rfl rfl
  rw [begun, begun, hframe, apply_ite (rewritten w f)]
  rfl

theorem byteStep_rewritten (i : Instr) (l : Latch) :
    byteStep (latchedFrame i) l (rewritten w f s) = rewritten w f (byteStep (latchedFrame i) l s) := by
  rw [byteStep_eq, byteStep_eq, begun_rewritten, apply_ite (rewritten w f), ← endFrame_rewritten]
  rfl

theorem pollStep_rewritten (hc : s.cur < s.ctxs.length) {r : State → Int} (hr : ∀ u, r (rewritten w f u) = r u) :
    pollStep (fun u => finish .dropped (r u) u) (rewritten w f s)
      = rewritten w f (pollStep (fun u => finish .dropped (r u) u) s) := by
  have hpolls : (rewritten w f s).me.polls = s.me.polls := by rw [rewritten_me w f s hc]
  have hcount : (rewritten w f s).updMe (fun c => { c with polls := c.polls + 1 })
      = rewritten w f (s.updMe fun c => { c with polls := c.polls + 1 }) := updMe_comm s fun _ => rfl
  have hwait : (rewritten w f s).updMe (fun c => { c with polls := c.polls + 1, wait := Config.pollInterval })
      = rewritten w f (s.updMe fun c => { c with polls := c.polls + 1, wait := Config.pollInterval }) :=
    updMe_comm s fun _ => rfl
  rw [pollStep, pollStep, hpolls, hcount, hwait, hr, finish_rewritten, claim_rewritten, apply_ite (rewritten w f),
    apply_ite (rewritten w f)]
  rfl

/-! ### The steps -/

section
variable {s} (hc : s.cur < s.ctxs.length)
include hc

theorem withLatch_rewritten {g g' : Latch → StepResult} (h : ∀ l, g' l = mapNext (rewritten w f) (g l)) :
    withLatch (rewritten w f s) g' = mapNext (rewritten w f) (withLatch s g) := by
  have hlat : (rewritten w f s).me.lat = s.me.lat := by rw [rewritten_me w f s hc]
  rw [withLatch, withLatch, hlat]
  cases s.me.lat with
  | none => rfl
  | some l => exact h l

theorem xferStep_rewritten (i : Instr) :
    xferStep (latchedFrame i) (rewritten w f s) = mapNext (rewritten w f) (xferStep (latchedFrame i) s) := by
  rw [xferStep, xferStep, apply_ite (mapNext (rewritten w f)), ← withLatch_rewritten w f hc fun l => ?_]
  · rfl
  · exact congrArg _ (byteStep_rewritten w f s i l)

theorem commitStep_rewritten (i : Instr) : commitStep (busEffect i) (busResult i) (rewritten w f s)
    = mapNext (rewritten w f) (commitStep (busEffect i) (busResult i) s) := by
  rw [commitStep, commitStep, apply_ite (mapNext (rewritten w f)), ← withLatch_rewritten w f hc fun l => ?_]
  · rfl
  · simp only [commitFrame_rewritten, busEffect_rewritten, release_rewritten, busResult_rewritten, finish_rewritten,
      mapNext]

/-- A plain bus op's later steps; its LAT and its decode check are the decode step's only (R124). -/
theorem plainOp_rewritten {i : Instr} (hi : i.opClass = .plainBus) (hp : s.me.phase.latched = true) (l l' : Latch)
    (stop stop' : Option RCode) : plainOp l' stop' (latchedFrame i) (busEffect i) (rewritten w f s)
      = mapNext (rewritten w f) (plainOp l stop (latchedFrame i) (busEffect i) s) := by
  have hphase : (rewritten w f s).me.phase = s.me.phase := by rw [rewritten_me w f s hc]
  rw [plainOp, plainOp, hphase]
  cases h : s.me.phase with
  | idle | decode => rw [h] at hp; cases hp
  | age => rfl
  | poll => exact congrArg _ (pollStep_rewritten w f s hc fun _ => rfl)
  | xfer => exact xferStep_rewritten w f hc i
  | commit => rw [← plain_result hi]; exact commitStep_rewritten w f hc i

/-- A cache op's later steps; its LAT is the decode step's only (R147). -/
theorem cacheOp_rewritten {i : Instr} (hi : i.opClass = .cache) (hp : s.me.phase.latched = true) (l : Latch)
    (m : Latch → Config → Word) (code : RCode) :
    cacheOp l (fun l' u => m l' u.cfg) (fun l' u => finish code (busResult i l' u) u)
        (fun l' u => finish .dropped (busResult i l' u) u) (busResult i) (rewritten w f s)
      = mapNext (rewritten w f) (cacheOp l (fun l' u => m l' u.cfg) (fun l' u => finish code (busResult i l' u) u)
        (fun l' u => finish .dropped (busResult i l' u) u) (busResult i) s) := by
  have hphase : (rewritten w f s).me.phase = s.me.phase := by rw [rewritten_me w f s hc]
  rw [cacheOp, cacheOp, hphase]
  cases h : s.me.phase with
  | idle | decode => rw [h] at hp; cases hp
  | age =>
    refine withLatch_rewritten w f hc fun l' => ?_
    rw [finish_rewritten, goPoll_rewritten, busResult_rewritten, ← apply_ite (rewritten w f)]
    rfl
  | poll =>
    exact withLatch_rewritten w f hc fun l' =>
      congrArg _ (pollStep_rewritten w f s hc fun u => busResult_rewritten w f u i l')
  | xfer =>
    rw [← cache_frame hi]
    exact xferStep_rewritten w f hc i
  | commit =>
    rw [← cache_effect hi]
    exact commitStep_rewritten w f hc i

end

end

/-- A local op has no step after its decode step (R81). -/
theorem local_later {i : Instr} {s : State} (hi : i.opClass = .localOp) (hp : s.me.phase.latched = true) :
    exec i s = .fault .phaseNotOfOp := by
  have hlocal (l : Latch) (work : State → State) : localOp l work s = .fault .phaseNotOfOp := by
    unfold localOp
    cases h : s.me.phase with
    | decode => rw [h] at hp; cases hp
    | _ => rfl
  cases i with
  | nop => unfold exec execNop; exact hlocal _ _
  | init => unfold exec execInit; exact hlocal _ _
  | getAccel => unfold exec execGetAccel; exact hlocal _ _
  | getMagnet => unfold exec execGetMagnet; exact hlocal _ _
  | getCompass => unfold exec execGetCompass; exact hlocal _ _
  | getOrient => unfold exec execGetOrient; exact hlocal _ _
  | _ => cases hi

end Sys2Proof.Proofs
end

section
open Sys2Proof Sys2Proof.Machine Sys2Proof.Claims Sys2Proof.Proofs

/-- Settles O7: past the decode step a skeleton's operations each commute with rewriting CMD and TXBUF. -/
theorem laterStepsReadOnlyLatch : Obligations.LaterStepsReadOnlyLatch := by
  intro i s w f hp
  have hc : s.cur < s.ctxs.length := by
    by_contra hc
    rw [State.me, ctx_beyond (Nat.le_of_not_lt hc)] at hp
    cases hp
  have hp' : (rewritten w f s).me.phase.latched = true := by rw [rewritten_me w f s hc]; exact hp
  cases hi : i.opClass with
  | localOp => rw [local_later hi hp, local_later hi hp', mapNext]
  | plainBus =>
    obtain ⟨l, h, -⟩ := plain_skeleton hi s
    obtain ⟨l', h', -⟩ := plain_skeleton hi (rewritten w f s)
    rw [h, h', plainOp_rewritten w f hc hi hp]
  | cache =>
    obtain ⟨l, m, code, h, -⟩ := cache_skeleton hi
    rw [h, h, cacheOp_rewritten w f hc hi hp]

end

section
/-! SUPPORT. A step always has an outcome, but for a host access that breaks R70: the access rules, and the next step of
an op in a state that meets the invariant (R70, R174, R175). -/

namespace Sys2Proof.Proofs

open Sys2Proof Sys2Proof.Machine Sys2Proof.Claims

/-! ### The access rules -/

theorem accessOk_iff_allowed (h : HostAccess) : accessOk (accessAddr h) (accessEnables h) = true ↔ Allowed h :=
  accessOk_iff

theorem hostAccess_of_not_allowed {h : HostAccess} (hn : ¬ Allowed h) (s : State) :
    hostAccess h s = .fault (.badAccess (accessAddr h) (accessEnables h)) := by
  rw [← accessOk_iff_allowed] at hn
  cases h with
  | read a be => exact if_neg hn
  | write a be w => exact if_neg hn

theorem hostAccess_of_allowed {h : HostAccess} (ha : Allowed h) (s : State) : ∃ t, hostAccess h s = .next t := by
  rw [← accessOk_iff_allowed] at ha
  cases h with
  | read a be => exact ⟨_, if_pos ha⟩
  | write a be w => exact ⟨_, if_pos ha⟩

/-! ### The next step of an op -/

/-- A local op has a decode step: all its work is there (R81). -/
theorem local_decode_next {i : Instr} {s : State} (hi : i.opClass = .localOp) (hp : s.me.phase = .decode) :
    ∃ t, exec i s = .next t := by
  cases i with
  | nop => unfold exec execNop; exact ⟨_, localOp_decode _ _ hp⟩
  | init => unfold exec execInit; exact ⟨_, localOp_decode _ _ hp⟩
  | getAccel => unfold exec execGetAccel; exact ⟨_, localOp_decode _ _ hp⟩
  | getMagnet => unfold exec execGetMagnet; exact ⟨_, localOp_decode _ _ hp⟩
  | getCompass => unfold exec execGetCompass; exact ⟨_, localOp_decode _ _ hp⟩
  | getOrient => unfold exec execGetOrient; exact ⟨_, localOp_decode _ _ hp⟩
  | _ => cases hi

theorem exec_decode_next (i : Instr) {s : State} (hp : s.me.phase = .decode) : ∃ t, exec i s = .next t := by
  cases hi : i.opClass with
  | localOp => exact local_decode_next hi hp
  | plainBus =>
    obtain ⟨l, h, -⟩ := plain_skeleton hi s
    exact ⟨_, by rw [h, plainOp_decode _ _ _ _ hp]⟩
  | cache =>
    obtain ⟨l, m, code, h, -⟩ := cache_skeleton hi
    exact ⟨_, by rw [h, cacheOp_decode _ _ _ _ _ hp]⟩

/-- The guard faults of log 10 cannot happen under the invariant: LAT is filled and fits the phase, and a claimed phase
has the claim (R48, R50, R64). -/
theorem exec_latched_next {s : State} (h : Inv s) (hp : s.me.phase.latched = true) :
    ∃ l t, s.me.lat = some l ∧ exec l.op s = .next t := by
  obtain ⟨-, l, hl, hfit⟩ := inv_latched (k := s.cur) h rfl hp
  change s.me.lat = some l at hl
  change s.me.phase.fits l.op = true at hfit
  refine ⟨l, ?_⟩
  have howner (hc : s.me.phase.claimed = true) : s.owner = some s.cur := h.claimed_owner _ hc
  have hbus (hfits : (!(l.op.opClass == .localOp)) = true) : isBus l.op := by simpa [isBus] using hfits
  cases hphase : s.me.phase with
  | idle | decode => rw [hphase] at hp; cases hp
  | age =>
    rw [hphase] at hfit
    obtain ⟨l', m, code, hexec, -⟩ := cache_skeleton (i := l.op) (by simpa [Phase.fits] using hfit)
    exact ⟨_, hl, by rw [hexec, cacheOp_age _ _ _ _ _ hphase hl]⟩
  | poll => rw [hphase] at hfit; exact ⟨_, hl, exec_poll (hbus hfit) hl hphase⟩
  | xfer => rw [hphase] at hfit howner; exact ⟨_, hl, exec_xfer (hbus hfit) hl hphase (howner rfl)⟩
  | commit => rw [hphase] at hfit howner; exact ⟨_, hl, exec_commit (hbus hfit) hl hphase (howner rfl)⟩

/-! ### The next step of each agent but the host -/

theorem step_ctx_next {s : State} {k : Nat} (h : Inv s) (hk : CtxSteps s k) : ∃ t, step s = .next t := by
  have hlatched (hp : (s.ctx k).phase.latched = true)
      (hw : (s.ctx k).phase = .poll → ((observed s).ctx k).wait = 0) : ∃ t, step s = .next t := by
    obtain ⟨l, t, hl, ht⟩ := exec_latched_next (inv_atStep k h) (by simpa using hp)
    exact ⟨t, by rw [step_latched hk hp (by simpa using hl) hw, ht]⟩
  cases hp : (s.ctx k).phase with
  | idle => exact ⟨_, step_idle hk hp⟩
  | decode =>
    cases hd : decode (s.ctx k).cmd with
    | ok i =>
      obtain ⟨t, ht⟩ := exec_decode_next i (s := atStep s k) (by simpa using hp)
      exact ⟨t, by rw [step_decoded hk hp hd, ht]⟩
    | error e => exact ⟨_, step_reserved hk hp hd⟩
  | poll =>
    by_cases hw : ((observed s).ctx k).wait = 0
    · exact hlatched (by rw [hp]; rfl) fun _ => hw
    · exact ⟨_, step_waits hk hp hw⟩
  | age | xfer | commit => exact hlatched (by rw [hp]; rfl) fun h' => by rw [hp] at h'; cases h'

/-- While rst_n = 0, and for a number that names no context, only the time and the pins change (log 8, log 11). -/
theorem step_no_ctx {s : State} {k : Nat} (ha : (nextEvent s).act = .ctx k) (hk : ¬ CtxSteps s k) :
    step s = .next (observed s) := by
  change actStep (nextEvent s).act (observed s) = _
  rw [ha, actStep, observed_rstN]
  by_cases hr : s.rstN = true
  · have hlen : s.ctxs.length ≤ k := Nat.le_of_not_lt fun hlt => hk ⟨hr, hlt, ha⟩
    have hnone : (observed s).ctxs[k]? = none := List.getElem?_eq_none (by simpa using hlen)
    rw [if_pos hr, ctxStep, hnone]
  · rw [if_neg hr]

theorem step_quiet {s : State} (ha : (nextEvent s).act = .quiet) : step s = .next (observed s) := by
  change actStep (nextEvent s).act (observed s) = _
  rw [ha]
  rfl

end Sys2Proof.Proofs
end

section
open Sys2Proof Sys2Proof.Machine Sys2Proof.Claims Sys2Proof.Proofs

/-- Settles O13: the model's access check is the access rules, and it is made before anything else. -/
theorem badAccessFaults : Obligations.BadAccessFaults := by
  intro s h ha
  rw [step_host ha]
  exact ⟨fun hn => hostAccess_of_not_allowed hn _, fun hok => hostAccess_of_allowed hok _⟩

/-- Settles O18: agent by agent; a context's op has a next state because its LAT fits its phase and a claimed phase has
the claim. -/
theorem onlyBadAccessStops : Obligations.OnlyBadAccessStops := by
  intro s h
  cases ha : (nextEvent s).act with
  | quiet => exact .inl ⟨_, step_quiet ha⟩
  | host a =>
    obtain ⟨hbad, hgood⟩ := badAccessFaults s a ha
    by_cases hok : Allowed a
    · exact .inl (hgood hok)
    · exact .inr ⟨a, rfl, hok, hbad hok⟩
  | ctx k =>
    by_cases hk : CtxSteps s k
    · exact .inl (step_ctx_next h hk)
    · exact .inl ⟨_, step_no_ctx ha hk⟩
  | rst level => exact .inl ⟨_, step_rst ha⟩

/-- Settles O22: a poll is one step of the skeleton, and its two outcomes are a claim and a write of context cur. -/
theorem pollClaimsOrCounts : Obligations.PollClaimsOrCounts := by
  rintro i l s hb ⟨hc, hp⟩ hl
  have hexec := exec_poll hb hl hp
  have hm := exec_move hexec
  have hphase {p : Phase} (hne : p ≠ .poll) : s.me.phase ≠ p := fun h => hne (h.symm.trans hp)
  rw [pollStep] at hexec hm
  refine ⟨fun hr => ?_, fun hr hn => ?_⟩
  · rw [if_pos hr] at hexec hm
    exact ⟨_, hexec, claim_ready s, claim_owner s, claim_initDone s, claim_me hc, move_ctxKept hm,
      move_cacheKept hm (hphase (by decide)), move_transportKept hm (hphase (by decide)), move_outsideKept hm⟩
  · rw [if_neg (by simp [hr]), if_neg hn] at hexec
    exact ⟨_, hexec, me_updMe _ hc, onlyOwnOp_updMe _ hc rfl rfl rfl rfl⟩

end

section
/-! SUPPORT. The host's writes: which context an address names, and what a write of each register leaves (R68 to R71,
R73 to R75). -/

namespace Sys2Proof.Proofs

open Sys2Proof Sys2Proof.Machine Sys2Proof.Claims

/-! ### Addresses -/

theorem ctxAddr_toNat {k off : Nat} (h : 0x100 + 0x40 * k + off < 0x1000) :
    (ctxAddr k off).toNat = 0x100 + 0x40 * k + off := by
  rw [ctxAddr, BitVec.toNat_ofNat, Nat.mod_eq_of_lt h]

/-- An offset in a context's block names that context (R68). -/
theorem ctxAddr_split {k off : Nat} (ho : off < 0x40) (h : 0x100 + 0x40 * k + off < 0x1000) :
    0x100 ≤ (ctxAddr k off).toNat ∧ ((ctxAddr k off).toNat - 0x100) / 0x40 = k
      ∧ ((ctxAddr k off).toNat - 0x100) % 0x40 = off := by
  rw [ctxAddr_toNat h]
  omega

/-! ### A write of one context -/

theorem updCtx_eq_self {s : State} {k : Nat} {f : Ctx → Ctx} (hf : k < s.ctxs.length → f (s.ctx k) = s.ctx k) :
    s.updCtx k f = s := by
  have hctxs : s.ctxs.modify k f = s.ctxs := by
    refine List.ext_getElem (by simp) fun j hj hj' => ?_
    rw [List.getElem_modify]
    split
    · subst k
      simpa [State.ctx, List.getElem?_eq_getElem hj'] using hf hj'
    · rfl
  rw [State.updCtx, hctxs]

theorem onlyCtx_updCtx (s : State) (k : Nat) (f : Ctx → Ctx) : OnlyCtx k s (s.updCtx k f) :=
  ⟨rfl, length_updCtx s k f, fun _ hj => ctx_updCtx_ne f hj⟩

theorem step_write {s : State} {a : BitVec 12} {w : Word} (hr : s.rstN = true) (ha : a.toNat % 4 = 0)
    (hw : HostWrites s a w) : step s = .next (regWrite (observed s) a w) := by
  rw [step_host hw, hostAccess_write (by simpa using hr) ha]

section
variable {s : State} {k off : Nat} {w : Word} (hr : s.rstN = true) (hlen : s.ctxs.length ≤ 16)
  (hk : k < s.ctxs.length) (ho : off < 0x40) (h4 : off % 4 = 0) (hw : HostWrites s (ctxAddr k off) w)
include hr hlen hk ho h4 hw

/-- A write in the block of a context that exists is a write of that context (R68). -/
theorem step_ctxWrite : step s = .next ((observed s).updCtx k (ctxWrite off w)) := by
  have hfit : 0x100 + 0x40 * k + off < 0x1000 := by omega
  have ha : (ctxAddr k off).toNat % 4 = 0 := by rw [ctxAddr_toNat hfit]; omega
  obtain ⟨hlo, hctx, hoff⟩ := ctxAddr_split ho hfit
  rw [step_write hr ha hw, regWrite, if_neg (Nat.not_lt.mpr hlo), hctx, hoff]

theorem step_ctxWrite_spec : ∃ t, step s = .next t ∧ OnlyCtx k (observed s) t
    ∧ t.ctx k = ctxWrite off w ((observed s).ctx k) :=
  ⟨_, step_ctxWrite hr hlen hk ho h4 hw, onlyCtx_updCtx _ _ _, ctx_updCtx_self _ (by simpa using hk)⟩

end

/-! ### The registers of a context's block -/

/-- The offsets that a write leaves alone (R69, R71). -/
theorem ctxWrite_readOnly {off : Nat} (w : Word) (c : Ctx) (h : off ∉ [0x00, 0x04, 0x10, 0x14, 0x18, 0x1C]) :
    ctxWrite off w c = c := by
  unfold ctxWrite
  split
  case h_7 => rfl
  all_goals simp at h

theorem regWrite_of_not_writable {s : State} {a : BitVec 12} (w : Word) (h : ¬ Writable s.ctxs.length a.toNat) :
    regWrite s a w = s := by
  unfold regWrite
  split
  · rfl
  · refine updCtx_eq_self fun hk => ctxWrite_readOnly w _ fun hoff => h ⟨_, _, hk, hoff, ?_⟩
    omega

theorem statusWrite_of_bit {w : Word} (c : Ctx) (h : w.getLsbD 1 = true) : statusWrite w c = { c with ovr := false } :=
  if_pos h

theorem statusWrite_of_not_bit {w : Word} (c : Ctx) (h : w.getLsbD 1 = false) : statusWrite w c = c :=
  if_neg (Bool.eq_false_iff.mp h)

theorem statusWrite_congr {w w' : Word} (h : w'.getLsbD 1 = w.getLsbD 1) : statusWrite w' = statusWrite w := by
  funext c
  rw [statusWrite, statusWrite, h]

theorem ctxWrite_txbuf (n : Fin 4) (w : Word) (c : Ctx) :
    ctxWrite (0x10 + 4 * n.val) w c = { c with txbuf := unpackWord c.txbuf n w } := by
  match n with
  | 0 | 1 | 2 | 3 => rfl

/-- Byte m of a frame whose word n is replaced (R76). -/
theorem unpackWord_getElem (f : Frame) (n : Fin 4) (w : Word) (m : Fin 16) : (unpackWord f n w)[m] =
    if m.val / 4 = n.val then BitVec.ofNat 8 (w.toNat / 256 ^ (m.val % 4)) else f[m] := by
  have hpow : 2 ^ (8 * (m.val % 4)) = 256 ^ (m.val % 4) := Nat.pow_mul 2 8 _
  simp only [unpackWord, Fin.getElem_fin, Vector.getElem_ofFn, BitVec.extractLsb', Nat.shiftRight_eq_div_pow, hpow]

/-! ### The start of an op -/

theorem cmdWrite_idle (w : Word) {c : Ctx} (hb : c.busy = false) :
    cmdWrite w c = { c with cmd := w, busy := true, phase := .decode } :=
  if_neg (Bool.eq_false_iff.mp hb)

theorem cmdWrite_busy (w : Word) {c : Ctx} (hb : c.busy = true) : cmdWrite w c = { c with ovr := true } := if_pos hb

theorem ctxWrite_phase_of_ne {off : Nat} (w : Word) (c : Ctx) (h : off ≠ 0) : (ctxWrite off w c).phase = c.phase := by
  unfold ctxWrite statusWrite
  split
  · exact absurd rfl h
  · split <;> rfl
  all_goals rfl

/-- Of the writes only a CMD write takes a context out of IDLE, by the accept step (R73). -/
theorem ctxWrite_starts {off : Nat} {w : Word} {c : Ctx} (hp : c.phase = .idle)
    (hne : (ctxWrite off w c).phase ≠ .idle) : off = 0 ∧ c.busy = false ∧ (ctxWrite off w c).cmd = w
      ∧ (ctxWrite off w c).phase = .decode := by
  by_cases hoff : off = 0
  case neg => exact absurd ((ctxWrite_phase_of_ne w c hoff).trans hp) hne
  subst hoff
  change (cmdWrite w c).phase ≠ .idle at hne
  change 0 = 0 ∧ c.busy = false ∧ (cmdWrite w c).cmd = w ∧ (cmdWrite w c).phase = .decode
  cases hb : c.busy with
  | true => rw [cmdWrite_busy w hb] at hne; exact absurd hp hne
  | false => rw [cmdWrite_idle w hb]; exact ⟨rfl, rfl, rfl, rfl⟩

theorem hostAccess_starts {s t : State} {k : Nat} {h : HostAccess} (ht : hostAccess h s = .next t)
    (hp : (s.ctx k).phase = .idle) (hne : (t.ctx k).phase ≠ .idle) :
    ∃ w, h = .write (ctxAddr k 0x00) 0xF w ∧ (s.ctx k).busy = false ∧ (t.ctx k).cmd = w
      ∧ (t.ctx k).phase = .decode := by
  obtain ⟨v, rfl⟩ | rfl | ⟨a, w, rfl, -, hlo, -, rfl⟩ := hostAccess_next ht
  · exact absurd hp hne
  · exact absurd hp hne
  obtain hj | ⟨hj, -, hctx⟩ := ctx_updCtx_or s ((a.toNat - 0x100) / 0x40) k (ctxWrite ((a.toNat - 0x100) % 0x40) w)
  · exact absurd (hj ▸ hp) hne
  rw [hctx] at hne ⊢
  obtain ⟨hoff, hb, hcmd, hphase⟩ := ctxWrite_starts hp hne
  have ha : a = ctxAddr k 0x00 := by
    have hsplit : 0x100 + 0x40 * k + 0x00 = a.toNat := by omega
    rw [ctxAddr, hsplit, BitVec.ofNat_toNat, BitVec.setWidth_eq]
  exact ⟨w, by rw [ha], hb, hcmd, hphase⟩

/-- A step of an op leaves an idle context idle: it is not the one that steps, and no other is written (R50). -/
theorem move_idle {i : Instr} {s t : State} {k : Nat} (h : Move i s t) (hp : (s.ctx k).phase = .idle) :
    (t.ctx k).phase = .idle := by
  have hk : k ≠ s.cur := by
    rintro rfl
    exact move_phase_ne_idle h hp
  rw [move_ctx_ne h hk, hp]

theorem setRst_idle {s : State} {k : Nat} (level : Bool) (hp : (s.ctx k).phase = .idle) :
    ((setRst level s).ctx k).phase = .idle := by
  cases level with
  | true => exact hp
  | false =>
    have hreset : (State.atReset s.cfg).ctx k = Ctx.reset := ctx_blockAtReset (blockAtReset_atReset _) k
    exact congrArg Ctx.phase hreset

/-- An op starts in no other way than by the accept step (R73). -/
theorem step_starts {s t : State} {k : Nat} (h : step s = .next t) (hp : (s.ctx k).phase = .idle)
    (hne : (t.ctx k).phase ≠ .idle) : ∃ w, HostWrites s (ctxAddr k 0x00) w ∧ (s.ctx k).busy = false
      ∧ (t.ctx k).cmd = w ∧ (t.ctx k).phase = .decode := by
  have hobs : ((observed s).ctx k).phase = .idle := by simpa using hp
  cases step_move h with
  | quiet => exact absurd hobs hne
  | host a _ ha ht =>
    obtain ⟨w, rfl, hb, hstart⟩ := hostAccess_starts ht hobs hne
    exact ⟨w, ha, by simpa using hb, hstart⟩
  | illegal j e hj hpj =>
    have hk : k ≠ j := by
      rintro rfl
      rw [hp] at hpj
      cases hpj
    have hkept : (finishIllegal (atStep s j)).ctx k = (observed s).ctx k := finish_ctx_ne .illegal 0 hk
    exact absurd (by rw [hkept, hobs]) hne
  | decode j i _ _ _ _ ht => exact absurd (move_idle (exec_move ht) hobs) hne
  | latched j l _ _ _ _ _ ht => exact absurd (move_idle (exec_move ht) hobs) hne
  | rst level => exact absurd (setRst_idle level hobs) hne

end Sys2Proof.Proofs
end

section
open Sys2Proof Sys2Proof.Machine Sys2Proof.Claims Sys2Proof.Proofs

/-- Settles O8: a CMD write is a write of one context, by the accept step or OVR; beyond the contexts no register is
writable; and of all steps only the accept step takes a context out of IDLE. -/
theorem cmdWriteStartsOp : Obligations.CmdWriteStartsOp := by
  refine ⟨fun s k w hr hlen hk hw => ?_, fun s k w hr hk hfit hw => ?_, fun s t k h hp hne => step_starts h hp hne⟩
  · obtain ⟨t, ht, honly, hctx⟩ := step_ctxWrite_spec hr hlen hk (by decide) (by decide) hw
    change t.ctx k = cmdWrite w _ at hctx
    exact ⟨t, ht, honly, fun hb => by rw [hctx, cmdWrite_idle w (by simpa using hb)],
      fun hb => by rw [hctx, cmdWrite_busy w (by simpa using hb)]⟩
  · have ha : (ctxAddr k 0x00).toNat = 0x100 + 0x40 * k + 0x00 := ctxAddr_toNat (by omega)
    rw [step_write hr (by rw [ha]; omega) hw, regWrite_of_not_writable w]
    rintro ⟨j, off, hj, hoff, heq⟩
    rw [observed_length] at hj
    simp only [List.mem_cons, List.not_mem_nil, or_false] at hoff
    omega

/-- Settles O9: a STATUS write is a write of one context, which clears OVR or changes nothing. -/
theorem statusWriteClearsOvr : Obligations.StatusWriteClearsOvr := by
  intro s k w hr hlen hk hw
  have ht := step_ctxWrite hr hlen hk (by decide) (by decide) hw
  refine ⟨_, ht, onlyCtx_updCtx _ _ _, fun hbit => ?_,
    fun hbit => updCtx_eq_self fun _ => statusWrite_of_not_bit _ hbit⟩
  rw [ctx_updCtx_self _ (by simpa using hk)]
  exact statusWrite_of_bit _ hbit

/-- Settles O10: a TXBUFn write is a write of one context's TXBUF, busy or not. -/
theorem txbufWriteStoresBytes : Obligations.TxbufWriteStoresBytes := by
  intro s k n w hr hlen hk hw
  obtain ⟨t, ht, honly, hctx⟩ := step_ctxWrite_spec hr hlen hk (by omega) (by omega) hw
  rw [ctxWrite_txbuf] at hctx
  refine ⟨t, ht, honly, by rw [hctx], fun m => ?_⟩
  rw [hctx, unpackWord_getElem, observed_ctx_txbuf]

end

section
/-! SUPPORT. The host's reads: every register's word, field by field, is the word of the spec's layout (R54 to R61, R69,
R71, R76). -/

namespace Sys2Proof.Proofs

open Sys2Proof Sys2Proof.Machine Sys2Proof.Claims

/-! ### Words as numbers -/

theorem toNat_append_eq {n m : Nat} (x : BitVec n) (y : BitVec m) : (x ++ y).toNat = x.toNat * 2 ^ m + y.toNat := by
  rw [BitVec.toNat_append, ← Nat.shiftLeft_add_eq_or_of_lt y.isLt, Nat.shiftLeft_eq]

theorem flagBit_eq (b : Bool) : flagBit b = b.toNat := by cases b <;> rfl

theorem rcodeBits_toNat (r : RCode) : (rcodeBits r).toNat = r.value := by cases r <;> rfl

theorem rcodeValue_le (r : RCode) : r.value ≤ 4 := by cases r <;> decide

/-! ### The words of the status registers -/

theorem gstatusWord_eq (s : State) : gstatusWord s = 0#24 ++ BitVec.ofNat 4 (s.owner.getD 0)
    ++ BitVec.ofBool s.owner.isSome ++ BitVec.ofBool s.xfer ++ BitVec.ofBool s.initDone ++ BitVec.ofBool s.ready := by
  have hready := s.ready.toNat_lt
  have hinit := s.initDone.toNat_lt
  have hxfer := s.xfer.toNat_lt
  have howner := s.owner.isSome.toNat_lt
  apply BitVec.eq_of_toNat_eq
  simp only [gstatusWord, toNat_append_eq, BitVec.toNat_ofNat, BitVec.toNat_ofBool, flagBit_eq]
  omega

theorem beakWord_eq (s : State) : beakWord s = 0#8 ++ BitVec.ofNat 8 s.beakB.val ++ BitVec.ofNat 8 s.beakG.val
    ++ BitVec.ofNat 8 s.beakR.val := by
  apply BitVec.eq_of_toNat_eq
  simp only [beakWord, toNat_append_eq, BitVec.toNat_ofNat]
  omega

theorem gconfigWord_eq (s : State) : gconfigWord s = 0#27 ++ BitVec.ofNat 5 s.cfg.nCtx := by
  apply BitVec.eq_of_toNat_eq
  simp only [gconfigWord, toNat_append_eq, BitVec.toNat_ofNat]
  omega

theorem statusWord_eq (c : Ctx) : statusWord c = 0#25 ++ rcodeBits c.rcode ++ 0#2 ++ BitVec.ofBool c.ovr
    ++ BitVec.ofBool c.busy := by
  have hbusy := c.busy.toNat_lt
  have hovr := c.ovr.toNat_lt
  have hcode := rcodeValue_le c.rcode
  apply BitVec.eq_of_toNat_eq
  simp only [statusWord, toNat_append_eq, BitVec.toNat_ofNat, BitVec.toNat_ofBool, flagBit_eq, rcodeBits_toNat]
  omega

theorem frame_getD (f : Frame) {j : Nat} (h : j < 16) : f.toList.getD j 0 = f[j] := by simp [h]

/-- Word n of a frame, its first byte in the low bits (R76). -/
theorem packWord_eq (f : Frame) (n : Fin 4) : packWord f n = wordOf f n.val := by
  apply BitVec.eq_of_toNat_eq
  simp (disch := omega) only [packWord, wordOf, List.range, List.range.loop, List.foldr, frame_getD, toNat_append_eq,
    BitVec.toNat_ofNat, Nat.add_zero]
  omega

/-! ### The word at an offset -/

theorem ctxRegister_unmapped (c : Ctx) {off : Nat} (h4 : off % 4 = 0) (h : off ∉ ctxOffsets) :
    ctxRegister c off = 0 := by
  simp only [ctxOffsets, List.mem_cons, List.not_mem_nil, or_false] at h
  rw [ctxRegister, if_neg (by omega), if_neg (by omega), if_neg (by omega), if_neg (by omega), if_neg (by omega)]

theorem ctxRead_eq (c : Ctx) {off : Nat} (h4 : off % 4 = 0) : ctxRead c off = ctxRegister c off := by
  unfold ctxRead
  split
  case h_1 => rfl
  case h_2 => exact statusWord_eq c
  case h_3 => rfl
  case h_12 => exact (ctxRegister_unmapped c h4 (by simp_all [ctxOffsets])).symm
  all_goals exact packWord_eq _ _

theorem registerWord_ctx (s : State) {a : Nat} (h : 0x100 ≤ a) : registerWord s a =
    if (a - 0x100) / 0x40 < s.ctxs.length then ctxRegister (s.ctx ((a - 0x100) / 0x40)) ((a - 0x100) % 0x40)
    else 0 := by
  rw [registerWord, if_neg (by omega), if_neg (by omega), if_neg (by omega)]
  simp only [h, true_and]

theorem registerWord_global (s : State) {a : Nat} (h : a < 0x100) (h0 : a ≠ 0x000) (h4 : a ≠ 0x004) (h8 : a ≠ 0x008) :
    registerWord s a = 0 := by
  rw [registerWord, if_neg h0, if_neg h4, if_neg h8, if_neg (by omega)]

/-- A read at an aligned offset gives the word of its register (R72). -/
theorem regRead_eq (s : State) {a : BitVec 12} (h4 : a.toNat % 4 = 0) : regRead s a = registerWord s a.toNat := by
  unfold regRead
  split
  case isTrue hlt =>
    split
    case h_1 ha => rw [ha]; exact gstatusWord_eq s
    case h_2 ha => rw [ha]; exact beakWord_eq s
    case h_3 ha => rw [ha]; exact gconfigWord_eq s
    case h_4 h0 h4 h8 => exact (registerWord_global s hlt h0 h4 h8).symm
  case isFalse hge =>
    rw [registerWord_ctx s (Nat.le_of_not_lt hge)]
    split
    case h_1 c hc =>
      obtain ⟨hk, hctx⟩ := ctx_of_getElem? hc
      rw [if_pos hk, hctx, ctxRead_eq c (by omega)]
    case h_2 hnone => rw [if_neg (by simpa using hnone)]

theorem registerWord_unmapped (s : State) {a : Nat} (h4 : a % 4 = 0) (h : ¬ Mapped s.ctxs.length a) :
    registerWord s a = 0 := by
  simp only [Mapped, not_or] at h
  obtain ⟨h0, h4', h8, hctx⟩ := h
  by_cases hlt : a < 0x100
  · exact registerWord_global s hlt h0 h4' h8
  rw [registerWord_ctx s (Nat.le_of_not_lt hlt)]
  split
  case isTrue hk =>
    refine ctxRegister_unmapped _ (by omega) fun hoff => hctx ⟨_, _, hk, hoff, ?_⟩
    omega
  case isFalse => rfl

/-- The event of a step changes no register: only `now`, the pins and the waits (R30). -/
theorem registerWord_observed (s : State) (a : Nat) : registerWord (observed s) a = registerWord s a := by
  have hctx (k off : Nat) : ctxRegister ((observed s).ctx k) off = ctxRegister (s.ctx k) off := by
    rw [observed_ctx_wait]
    rfl
  simp only [registerWord, observed_ready, observed_initDone, observed_xfer, observed_owner, observed_beakR,
    observed_beakG, observed_beakB, observed_cfg, observed_length, hctx]

theorem step_read {s : State} {a : BitVec 12} (hr : s.rstN = true) (h4 : a.toNat % 4 = 0) (ha : HostReads s a) :
    step s = .next { observed s with hRdata := registerWord s a.toNat } := by
  rw [step_host ha, hostAccess_read (by simpa using hr) h4, regRead_eq _ h4, registerWord_observed]

/-! ### Reserved bits -/

theorem getLsbD_ofNat_eq_false {v n : Nat} (h : v / 2 ^ n % 2 = 0) : (BitVec.ofNat 32 v).getLsbD n = false := by
  rw [BitVec.getLsbD_ofNat, Nat.testBit_eq_decide_div_mod_eq, h]
  exact Bool.and_false _

theorem getLsbD_ofNat_of_lt {v m n : Nat} (hv : v < 2 ^ m) (hn : m ≤ n) : (BitVec.ofNat 32 v).getLsbD n = false :=
  getLsbD_ofNat_eq_false (by rw [Nat.div_eq_of_lt (hv.trans_le (Nat.pow_le_pow_right (by decide) hn))])

theorem gstatusWord_reserved (s : State) {n : Nat} (hn : 8 ≤ n) : (gstatusWord s).getLsbD n = false := by
  have hready := s.ready.toNat_lt
  have hinit := s.initDone.toNat_lt
  have hxfer := s.xfer.toNat_lt
  have howner := s.owner.isSome.toNat_lt
  refine getLsbD_ofNat_of_lt ?_ hn
  simp only [flagBit_eq]
  omega

theorem beakWord_reserved (s : State) {n : Nat} (hn : 24 ≤ n) : (beakWord s).getLsbD n = false :=
  getLsbD_ofNat_of_lt (by omega) hn

theorem gconfigWord_reserved (s : State) {n : Nat} (hn : 5 ≤ n) : (gconfigWord s).getLsbD n = false :=
  getLsbD_ofNat_of_lt (by omega) hn

theorem statusWord_reserved (c : Ctx) {n : Nat} (hn : n = 2 ∨ n = 3 ∨ 7 ≤ n) : (statusWord c).getLsbD n = false := by
  have hbusy := c.busy.toNat_lt
  have hovr := c.ovr.toNat_lt
  have hcode := rcodeValue_le c.rcode
  rw [statusWord, flagBit_eq, flagBit_eq]
  obtain rfl | rfl | hn := hn
  · exact getLsbD_ofNat_eq_false (by omega)
  · exact getLsbD_ofNat_eq_false (by omega)
  · exact getLsbD_ofNat_of_lt (by omega) hn

theorem registerWord_status {s : State} {k : Nat} (hlen : s.ctxs.length ≤ 16) (hk : k < s.ctxs.length) :
    registerWord s (ctxAddr k 0x04).toNat = statusWord (s.ctx k) := by
  obtain ⟨hlo, hctx, hoff⟩ := ctxAddr_split (k := k) (off := 0x04) (by decide) (by omega)
  rw [registerWord_ctx s hlo, hctx, hoff, if_pos hk, statusWord_eq]
  rfl

end Sys2Proof.Proofs
end

section
open Sys2Proof Sys2Proof.Machine Sys2Proof.Claims Sys2Proof.Proofs

/-- Settles O11: the model's packing of each register is the spec's layout, and an event changes no register. -/
theorem readsReturnRegisters : Obligations.ReadsReturnRegisters := fun _ _ hr h4 ha => step_read hr h4 ha

/-- Settles O12: no register stands at an unmapped offset, a write reaches only the writable ones, each packed word has
its reserved bits 0, and a STATUS write reads bit 1 of its word only. -/
theorem unmappedAndReservedReadZero : Obligations.UnmappedAndReservedReadZero := by
  refine ⟨fun s a hr h4 hun ha => ?_, fun s a w hr h4 hun hw => ?_, fun s t a n hr hlen ha ht hbit => ?_,
    fun s s' k w w' hr hlen hk hw hw' hobs hbit => ?_⟩
  · rw [step_read hr h4 ha, registerWord_unmapped s h4 hun]
  · rw [step_write hr h4 hw, regWrite_of_not_writable w (by simpa using hun)]
  · have hread (h4 : a.toNat % 4 = 0) : t.hRdata = regRead s a := by
      rw [step_read hr h4 ha, ← regRead_eq s h4] at ht
      cases ht
      rfl
    obtain ⟨rfl, hn⟩ | ⟨rfl, hn⟩ | ⟨rfl, hn⟩ | ⟨k, hk, rfl, hn⟩ := hbit
    · rw [hread (by decide)]; exact gstatusWord_reserved s hn
    · rw [hread (by decide)]; exact beakWord_reserved s hn
    · rw [hread (by decide)]; exact gconfigWord_reserved s hn
    · have h4 : (ctxAddr k 0x04).toNat % 4 = 0 := by rw [ctxAddr_toNat (by omega)]; omega
      rw [hread h4, regRead_eq s h4, registerWord_status hlen hk, statusWord_reserved _ hn]
  · have hr' : s'.rstN = true := by rw [← observed_rstN, hobs, observed_rstN, hr]
    have hlen' : s'.ctxs.length = s.ctxs.length := by rw [← observed_length, hobs, observed_length]
    rw [step_ctxWrite hr hlen hk (by decide) (by decide) hw,
      step_ctxWrite hr' (hlen'.trans_le hlen) (hk.trans_eq hlen'.symm) (by decide) (by decide) hw', hobs]
    change Host.Outcome.next ((observed s).updCtx k (statusWrite w')) = .next ((observed s).updCtx k (statusWrite w))
    rw [statusWrite_congr hbit]

end
section
/-! SUPPORT. The decoder by its fields: what a decoded word reads, as one equivalence, and a mask of fields as the number
that they make up (R86 to R91). -/

namespace Sys2Proof.Proofs

open Sys2Proof Sys2Proof.Machine Sys2Proof.Claims

/-! ### The fields an op reads -/

/-- The fields of the command word that hold op i: OP, and the operands of i in its format (R86, R87, R90). -/
def Reads (w : Word) (i : Instr) : Prop :=
  match i with
  | .nop => field w 27 5 = 0x00
  | .init => field w 27 5 = 0x01
  | .stopAll => field w 27 5 = 0x02
  | .setAllLeds r g b => field w 27 5 = 0x03 ∧ field w 16 8 = r ∧ field w 8 8 = g ∧ field w 0 8 = b
  | .setSingleLed port r g b =>
    field w 27 5 = 0x04 ∧ field w 24 3 = port ∧ field w 16 8 = r ∧ field w 8 8 = g ∧ field w 0 8 = b
  | .resetEncoders => field w 27 5 = 0x05
  | .readSensors => field w 27 5 = 0x06
  | .move dir spd amt =>
    field w 27 5 = 0x07 ∧ (field w 26 1 == 1) = dir ∧ signedByte (field w 16 8) = spd ∧ field w 0 16 = amt
  | .turn dir spd amt =>
    field w 27 5 = 0x08 ∧ (field w 26 1 == 1) = dir ∧ signedByte (field w 16 8) = spd ∧ field w 0 16 = amt
  | .setWheels lspd rspd =>
    field w 27 5 = 0x09 ∧ signedByte (field w 8 8) = lspd ∧ signedByte (field w 0 8) = rspd
  | .xferRaw len fill => field w 27 5 = 0x0A ∧ field w 8 5 = len ∧ BitVec.ofNat 8 (field w 0 8) = fill
  | .refresh maxAge => field w 27 5 = 0x0B ∧ field w 0 16 = maxAge
  | .getDistance => field w 27 5 = 0x10
  | .getLight sel => field w 27 5 = 0x11 ∧ field w 0 3 = sel
  | .getLine sel => field w 27 5 = 0x12 ∧ field w 0 3 = sel
  | .getBattery => field w 27 5 = 0x13
  | .getEncoder sel => field w 27 5 = 0x14 ∧ field w 0 3 = sel
  | .getPosflag => field w 27 5 = 0x15
  | .getAccel sel => field w 27 5 = 0x18 ∧ field w 0 3 = sel
  | .getMagnet sel => field w 27 5 = 0x19 ∧ field w 0 3 = sel
  | .getCompass => field w 27 5 = 0x1A
  | .getOrient sel => field w 27 5 = 0x1B ∧ field w 0 3 = sel

/-- A word decodes to the op whose fields it holds, and to no other. -/
theorem decode_eq_ok_iff {w : Word} {i : Instr} : decode w = .ok i ↔ Reads w i := by
  constructor
  · intro h
    unfold decode at h
    split at h
    case h_23 => cases h
    all_goals
      cases h
      simp only [Reads, *, and_self]
  · cases i <;> simp +contextual [Reads, decode]

theorem field_lt (w : Word) (lo len : Nat) : field w lo len < 2 ^ len := Nat.mod_lt _ (Nat.two_pow_pos len)

/-- No op of the table has a reserved OP (R90, R91). -/
theorem Reads.not_reserved {w : Word} {i : Instr} (h : Reads w i) : field w 27 5 ∉ reservedOps := by
  cases i <;> simp_all [Reads, reservedOps]

/-- A word whose OP is not reserved decodes to an op (R90, R91). -/
theorem decode_of_not_reserved {w : Word} (h : field w 27 5 ∉ reservedOps) : ∃ i, decode w = .ok i := by
  have hlt := field_lt w 27 5
  simp only [reservedOps, List.mem_cons, List.not_mem_nil, or_false, not_or] at h
  unfold decode
  split
  case h_23 =>
    simp only [imp_false] at *
    omega
  all_goals exact ⟨_, rfl⟩

/-- A word whose OP is reserved is no op's (R91). -/
theorem decode_of_reserved {w : Word} (h : field w 27 5 ∈ reservedOps) : ∃ e, decode w = .error e := by
  cases hd : decode w with
  | error e => exact ⟨e, rfl⟩
  | ok i => exact absurd h (decode_eq_ok_iff.mp hd).not_reserved

/-! ### Masks made of fields -/

/-- The mask of the field w[lo+len−1 : lo]. -/
def fieldMask (lo len : Nat) : Word := BitVec.ofNat 32 ((2 ^ len - 1) * 2 ^ lo)

/-- The mask of a list of fields, each given by its lowest bit and its length. -/
def fieldsMask : List (Nat × Nat) → Word
  | [] => 0
  | f :: fs => fieldMask f.1 f.2 ||| fieldsMask fs

/-- The number that those fields of a word make up, each in its place. -/
def fieldsValue (w : Word) : List (Nat × Nat) → Nat
  | [] => 0
  | f :: fs => field w f.1 f.2 * 2 ^ f.1 + fieldsValue w fs

/-- No field reaches past the word or into a later one of the list. -/
def DisjointFields : List (Nat × Nat) → Prop
  | [] => True
  | f :: fs => f.1 + f.2 ≤ 32 ∧ fieldMask f.1 f.2 &&& fieldsMask fs = 0 ∧ DisjointFields fs

theorem getLsbD_fieldMask {lo len : Nat} (n : Nat) (h : lo + len ≤ 32) :
    (fieldMask lo len).getLsbD n = (decide (lo ≤ n) && decide (n < lo + len)) := by
  rw [fieldMask, BitVec.getLsbD_ofNat, Nat.testBit_mul_two_pow, Nat.testBit_two_pow_sub_one]
  grind

theorem testBit_field (w : Word) (lo len n : Nat) :
    (field w lo len).testBit n = (decide (n < len) && w.getLsbD (lo + n)) := by
  rw [field, Nat.testBit_mod_two_pow, Nat.testBit_div_two_pow, BitVec.getLsbD, Nat.add_comm]

/-- What a field's mask leaves of a word is the field in its place. -/
theorem and_fieldMask (w : Word) {lo len : Nat} (h : lo + len ≤ 32) :
    w &&& fieldMask lo len = BitVec.ofNat 32 (field w lo len * 2 ^ lo) := by
  apply BitVec.eq_of_getLsbD_eq
  intro n hn
  rw [BitVec.getLsbD_and, getLsbD_fieldMask n h, BitVec.getLsbD_ofNat, Nat.testBit_mul_two_pow, testBit_field]
  grind

theorem and_fieldsMask (w : Word) {fs : List (Nat × Nat)} (h : DisjointFields fs) :
    w &&& fieldsMask fs = BitVec.ofNat 32 (fieldsValue w fs) := by
  induction fs with
  | nil => simp [fieldsMask, fieldsValue]
  | cons f fs ih =>
    obtain ⟨hlen, hdisj, hfs⟩ := h
    have hzero : w &&& fieldMask f.1 f.2 &&& (w &&& fieldsMask fs) = 0 := by
      calc w &&& fieldMask f.1 f.2 &&& (w &&& fieldsMask fs)
        _ = w &&& w &&& (fieldMask f.1 f.2 &&& fieldsMask fs) := by ac_rfl
        _ = 0 := by rw [hdisj]; exact BitVec.and_zero
    rw [fieldsMask, BitVec.and_or_distrib_left, ← BitVec.add_eq_or_of_and_eq_zero _ _ hzero, ih hfs,
      and_fieldMask w hlen, fieldsValue, BitVec.ofNat_add]

/-- A list's mask covers each of its fields. -/
theorem fieldMask_and_fieldsMask {fs : List (Nat × Nat)} {f : Nat × Nat} (hf : f ∈ fs) :
    fieldMask f.1 f.2 &&& fieldsMask fs = fieldMask f.1 f.2 := by
  induction fs with
  | nil => cases hf
  | cons g gs ih =>
    rw [fieldsMask, BitVec.and_or_distrib_left]
    cases hf with
    | head => ext n hn; simp +contextual
    | tail _ hf => rw [ih hf]; ext n hn; simp +contextual

/-- Words that agree under a mask agree in each field it covers. -/
theorem field_eq_of_and_eq {w w' : Word} {fs : List (Nat × Nat)} (h : w' &&& fieldsMask fs = w &&& fieldsMask fs)
    {f : Nat × Nat} (hf : f ∈ fs) (hlen : f.1 + f.2 ≤ 32) : field w' f.1 f.2 = field w f.1 f.2 := by
  have hmask : w' &&& fieldMask f.1 f.2 = w &&& fieldMask f.1 f.2 := by
    rw [← fieldMask_and_fieldsMask hf, BitVec.and_comm (fieldMask _ _), ← BitVec.and_assoc, h, BitVec.and_assoc]
  apply Nat.eq_of_testBit_eq
  intro n
  have hbit := congrArg (BitVec.getLsbD · (f.1 + n)) hmask
  simp only [BitVec.getLsbD_and, getLsbD_fieldMask _ hlen] at hbit
  rw [testBit_field, testBit_field]
  grind

/-! ### The fields of each format -/

/-- The fields that an op's format gives a meaning (R87). -/
def formatFields (i : Instr) : List (Nat × Nat) :=
  match i with
  | .nop | .init | .stopAll | .resetEncoders | .readSensors => [(27, 5)]
  | .getDistance | .getBattery | .getPosflag | .getCompass => [(27, 5)]
  | .setAllLeds _ _ _ => [(27, 5), (16, 8), (8, 8), (0, 8)]
  | .setSingleLed _ _ _ _ => [(27, 5), (24, 3), (16, 8), (8, 8), (0, 8)]
  | .move _ _ _ | .turn _ _ _ => [(27, 5), (26, 1), (16, 8), (0, 16)]
  | .setWheels _ _ => [(27, 5), (8, 8), (0, 8)]
  | .xferRaw _ _ => [(27, 5), (8, 5), (0, 8)]
  | .refresh _ => [(27, 5), (0, 16)]
  | .getLight _ | .getLine _ | .getEncoder _ | .getAccel _ | .getMagnet _ | .getOrient _ => [(27, 5), (0, 3)]

theorem readBits_eq (i : Instr) : readBits i = fieldsMask (formatFields i) := by
  cases i <;> rfl

theorem disjointFields_format (i : Instr) : DisjointFields (formatFields i) := by
  cases i <;> simp [formatFields, DisjointFields, fieldMask, fieldsMask]

theorem DisjointFields.le {fs : List (Nat × Nat)} (h : DisjointFields fs) {f : Nat × Nat} (hf : f ∈ fs) :
    f.1 + f.2 ≤ 32 := by
  induction fs with
  | nil => cases hf
  | cons g gs ih =>
    obtain ⟨hlen, -, hgs⟩ := h
    cases hf with
    | head => exact hlen
    | tail _ hf => exact ih hgs hf

/-- An op reads only the fields of its format (R87, R91). -/
theorem Reads.congr {w w' : Word} {i : Instr} (h : Reads w i)
    (hf : ∀ f ∈ formatFields i, field w' f.1 f.2 = field w f.1 f.2) : Reads w' i := by
  cases i <;> simp_all [Reads, formatFields]

/-! ### The operands read fit their fields, and are written back as they stand -/

section
variable (w : Word) (lo : Nat)

theorem fitsByte_field : fitsByte (field w lo 8) = true := decide_eq_true (field_lt w lo 8)

theorem fitsHalf_field : fitsHalf (field w lo 16) = true := decide_eq_true (field_lt w lo 16)

theorem fitsThree_field : fitsThree (field w lo 3) = true := decide_eq_true (field_lt w lo 3)

theorem fitsSigned_field : fitsSigned (signedByte (field w lo 8)) = true := by
  have h : field w lo 8 < 256 := field_lt w lo 8
  rw [fitsSigned, signedByte, ← Bool.decide_and, decide_eq_true_eq]
  split <;> omega

theorem byteField_field : byteField (signedByte (field w lo 8)) = field w lo 8 := by
  have h : field w lo 8 < 256 := field_lt w lo 8
  rw [byteField, signedByte]
  split <;> omega

theorem bitField_field : bitField (field w lo 1 == 1) = field w lo 1 := by
  have h := field_lt w lo 1
  obtain h | h : field w lo 1 = 0 ∨ field w lo 1 = 1 := by omega
  · rw [h]; rfl
  · rw [h]; rfl

theorem toNat_ofNat_field : (BitVec.ofNat 8 (field w lo 8)).toNat = field w lo 8 :=
  Nat.mod_eq_of_lt (field_lt w lo 8)

end

/-- Each operand read fits its field (R88). -/
theorem Reads.wellFormed {w : Word} {i : Instr} (h : Reads w i) : i.wellFormed = true := by
  cases i with
  | setAllLeds =>
    obtain ⟨-, rfl, rfl, rfl⟩ := h
    simp only [Instr.wellFormed, fitsByte_field, Bool.and_self]
  | setSingleLed =>
    obtain ⟨-, rfl, rfl, rfl, rfl⟩ := h
    simp only [Instr.wellFormed, fitsThree_field, fitsByte_field, Bool.and_self]
  | move | turn =>
    obtain ⟨-, -, rfl, rfl⟩ := h
    simp only [Instr.wellFormed, fitsSigned_field, fitsHalf_field, Bool.and_self]
  | setWheels =>
    obtain ⟨-, rfl, rfl⟩ := h
    simp only [Instr.wellFormed, fitsSigned_field, Bool.and_self]
  | xferRaw =>
    obtain ⟨-, rfl, -⟩ := h
    exact decide_eq_true (field_lt w 8 5)
  | refresh =>
    obtain ⟨-, rfl⟩ := h
    exact fitsHalf_field w 0
  | getLight | getLine | getEncoder | getAccel | getMagnet | getOrient =>
    obtain ⟨-, rfl⟩ := h
    exact fitsThree_field w 0
  | _ => rfl

theorem opWord_eq_fieldsValue {w : Word} {op args : Nat} {fs : List (Nat × Nat)} (ho : field w 27 5 = op)
    (ha : args = fieldsValue w fs) : opWord op args = BitVec.ofNat 32 (fieldsValue w ((27, 5) :: fs)) := by
  rw [opWord, ha, ← ho, fieldsValue]

/-- The word of an op is the fields that hold it, every other bit 0 (R87, R93). -/
theorem Reads.encode_eq {w : Word} {i : Instr} (h : Reads w i) :
    encode i = BitVec.ofNat 32 (fieldsValue w (formatFields i)) := by
  cases i with
  | setAllLeds =>
    obtain ⟨ho, rfl, rfl, rfl⟩ := h
    exact opWord_eq_fieldsValue ho (by simp only [fieldsValue]; omega)
  | setSingleLed =>
    obtain ⟨ho, rfl, rfl, rfl, rfl⟩ := h
    exact opWord_eq_fieldsValue ho (by simp only [fieldsValue]; omega)
  | move | turn =>
    obtain ⟨ho, rfl, rfl, rfl⟩ := h
    exact opWord_eq_fieldsValue ho (by simp only [bitField_field, byteField_field, fieldsValue]; omega)
  | setWheels =>
    obtain ⟨ho, rfl, rfl⟩ := h
    exact opWord_eq_fieldsValue ho (by simp only [byteField_field, fieldsValue]; omega)
  | xferRaw =>
    obtain ⟨ho, rfl, rfl⟩ := h
    exact opWord_eq_fieldsValue ho (by simp only [toNat_ofNat_field, fieldsValue]; omega)
  | refresh | getLight | getLine | getEncoder | getAccel | getMagnet | getOrient =>
    obtain ⟨ho, rfl⟩ := h
    exact opWord_eq_fieldsValue ho (by simp only [fieldsValue]; omega)
  | _ => exact opWord_eq_fieldsValue h rfl

/-! ### The decode step of a context -/

/-- The decode checks give NOXFER and REJECTED only (R127, R134, R169). -/
theorem decodeCheck_ne_illegal (i : Instr) (cfg : Config) : decodeCheck i cfg ≠ some .illegal := by
  unfold decodeCheck
  split
  case h_4 => exact nofun
  all_goals split <;> decide

/-- No op ends ILLEGAL in its decode step: a local op ends OK, and a plain bus op with the code of its decode check. -/
theorem exec_decode_ne_illegal {i : Instr} {s t : State} (hs : Standing s .decode) (ht : exec i s = .next t)
    (hidle : t.me.phase = .idle) : t.me.rcode ≠ .illegal := by
  obtain ⟨hc, hp⟩ := hs
  have hfinish (r : Int) (u : State) (hu : u.cur < u.ctxs.length) : (finish .ok r u).me.rcode ≠ .illegal := by
    rw [finish_me _ _ hu]
    exact nofun
  cases exec_move ht with
  | localDone l r => exact hfinish r _ (by simpa)
  | initDone l =>
    rw [initEffect_eq]
    exact hfinish 0 _ (by simpa)
  | decodeStop l code _ hi =>
    cases hcheck : decodeCheck i s.cfg with
    | none =>
      obtain ⟨u, l', hu, -, hme, -⟩ := (plainOpDecodes i s hi ⟨hc, hp⟩).2 hcheck
      cases ht.symm.trans hu
      rw [hme] at hidle
      cases hidle
    | some code' =>
      obtain ⟨u, hu, ⟨hcode, -⟩, -⟩ := (plainOpDecodes i s hi ⟨hc, hp⟩).1 code' hcheck
      cases ht.symm.trans hu
      rw [hcode]
      rintro rfl
      exact decodeCheck_ne_illegal i s.cfg hcheck
  | decodePoll l =>
    rw [goPoll_me (by simpa)] at hidle
    cases hidle
  | decodeAge l =>
    rw [goAge_me (by simpa)] at hidle
    cases hidle
  | _ => simp_all

end Sys2Proof.Proofs
end

section
open Sys2Proof Sys2Proof.Machine Sys2Proof.Claims Sys2Proof.Proofs

/-- Settles O2: op by op, each operand is read back from the field it was written to. -/
theorem decodeOfEncode : Obligations.DecodeOfEncode := by
  intro i
  cases i with
  | nop => exact Laws.RoundTrip.nop
  | init => exact Laws.RoundTrip.init
  | stopAll => exact Laws.RoundTrip.stopAll
  | setAllLeds r g b => exact Laws.RoundTrip.setAllLeds r g b
  | setSingleLed port r g b => exact Laws.RoundTrip.setSingleLed port r g b
  | resetEncoders => exact Laws.RoundTrip.resetEncoders
  | readSensors => exact Laws.RoundTrip.readSensors
  | move dir spd amt => exact Laws.RoundTrip.move dir spd amt
  | turn dir spd amt => exact Laws.RoundTrip.turn dir spd amt
  | setWheels lspd rspd => exact Laws.RoundTrip.setWheels lspd rspd
  | xferRaw len fill => exact Laws.RoundTrip.xferRaw len fill
  | refresh maxAge => exact Laws.RoundTrip.refresh maxAge
  | getDistance => exact Laws.RoundTrip.getDistance
  | getLight sel => exact Laws.RoundTrip.getLight sel
  | getLine sel => exact Laws.RoundTrip.getLine sel
  | getBattery => exact Laws.RoundTrip.getBattery
  | getEncoder sel => exact Laws.RoundTrip.getEncoder sel
  | getPosflag => exact Laws.RoundTrip.getPosflag
  | getAccel sel => exact Laws.RoundTrip.getAccel sel
  | getMagnet sel => exact Laws.RoundTrip.getMagnet sel
  | getCompass => exact Laws.RoundTrip.getCompass
  | getOrient sel => exact Laws.RoundTrip.getOrient sel

/-- Settles O3: a decoded word holds the op in the fields of its format, and the mask of those fields is what the op
reads. -/
theorem decodeReadsOperandBits : Obligations.DecodeReadsOperandBits := by
  intro w i hd
  have hr := decode_eq_ok_iff.mp hd
  have hdisj := disjointFields_format i
  rw [readBits_eq]
  refine ⟨hr.wellFormed, by rw [hr.encode_eq, and_fieldsMask w hdisj], fun w' hw' => ?_⟩
  exact decode_eq_ok_iff.mpr (hr.congr fun f hf => field_eq_of_and_eq hw' hf (hdisj.le hf))

/-- Settles O4: the reserved values of OP are the ones that no op of the table has, and no op's decode step ends
ILLEGAL. -/
theorem reservedOpFinishesIllegal : Obligations.ReservedOpFinishesIllegal := by
  refine ⟨fun s k hk hp hop => ?_, fun s k hk hp hop => ?_, fun w => decode_of_not_reserved⟩
  · have ⟨_, hlt, _⟩ := hk
    obtain ⟨e, hd⟩ := decode_of_reserved hop
    have hc : (atStep s k).cur < (atStep s k).ctxs.length := by simpa using hlt
    refine ⟨_, step_reserved hk hp hd, finish_finished _ _ hc, onlyOwnOp_finish _ _ hc, ?_⟩
    rw [finishIllegal, finish_me _ _ hc]
    simp
  · have ⟨_, hlt, _⟩ := hk
    obtain ⟨i, hd⟩ := decode_of_not_reserved hop
    obtain ⟨t, ht⟩ := exec_decode_next i (s := atStep s k) (by simpa using hp)
    obtain ⟨-, -, -, -, -, -, -, hcur, -, -⟩ := move_outsideKept (exec_move ht)
    obtain rfl : t.cur = k := hcur
    refine ⟨t, by rw [step_decoded hk hp hd, ht], exec_decode_ne_illegal ⟨?_, by simpa using hp⟩ ht⟩
    simpa using hlt

/-- Settles O1: the decoder is evaluated on each word. -/
theorem specWordsDecode : Obligations.SpecWordsDecode := by
  unfold Obligations.SpecWordsDecode
  decide

end

section
/-! SUPPORT. The pose that a SEL operand names (R89, R168). -/

namespace Sys2Proof.Proofs

open Sys2Proof Sys2Proof.Machine Sys2Proof.Claims

/-- The pose test of the clamped selector is the pose that SEL names (R89, R168). -/
theorem poseTest_clampKind (t : Int) (g : Int × Int × Int) (shake : Bool) (sel : Nat) :
    poseTest t g shake (clampKind sel) = true ↔ Pose g shake t sel := by
  match sel with
  | 0 | 1 | 2 | 3 | 4 | 5 => simp [clampKind, poseTest, Pose]
  | n + 6 =>
    have h : clampKind (n + 6) = 6 := Nat.min_eq_right (by omega)
    simp [h, poseTest, Pose]

end Sys2Proof.Proofs
end

section
open Sys2Proof Sys2Proof.Machine Sys2Proof.Claims Sys2Proof.Proofs

/-- Settles O55: the op ends in its decode step with the test of the clamped selector on the rotated acceleration. -/
theorem orientationPoses : Obligations.OrientationPoses := by
  intro sel s hs
  refine ⟨if poseTest s.cfg.orientT.val (accelOf s) s.pins.shake (clampKind sel) then 1 else 0, ?_, ?_, ?_⟩
  · refine finishesWith_of_localOp { op := .getOrient sel, sel := clampKind sel } (value := fun u =>
      if poseTest u.cfg.orientT.val (rotatedAccel u.cfg u.pins) u.pins.shake (clampKind sel) then 1 else 0) rfl ?_ hs
    simp only [latch_cfg, latch_pins, rotatedAccel_eq]
  · exact (ite_eq_or_eq _ _ _).symm
  · rw [← poseTest_clampKind]
    split <;> simp_all

end

section
/-! SUPPORT. The run of a bus op that meets no other agent: from its decode step to its finish, with the bus free at its
first poll (R50, R115, R118, R124, R147). -/

namespace Sys2Proof.Proofs

open Sys2Proof Sys2Proof.Machine Sys2Proof.Claims

/-! ### A run of an op's steps -/

/-- One step, and then the rest. -/
theorem opRun_cons {i : Instr} {x : StepInput} {s u : State} (h : exec i (s.withInput x) = .next u)
    (xs : List StepInput) : opRun i (x :: xs) s = opRun i xs u := by
  simp only [opRun, h]

theorem opRun_cons_next {i : Instr} {x : StepInput} {xs : List StepInput} {s t : State}
    (h : opRun i (x :: xs) s = .next t) : ∃ u, exec i (s.withInput x) = .next u ∧ opRun i xs u = .next t := by
  cases hx : exec i (s.withInput x) with
  | next u => exact ⟨u, rfl, by rw [← opRun_cons hx, h]⟩
  | fault r => simp [opRun, hx] at h
  | refused r => simp [opRun, hx] at h

/-- The inputs of a run, but for the last. -/
theorem exists_append_singleton {α : Type} {xs : List α} {n : Nat} (h : xs.length = n + 1) :
    ∃ ys z, xs = ys ++ [z] ∧ ys.length = n := by
  have hne : xs ≠ [] := List.ne_nil_of_length_eq_add_one h
  exact ⟨_, _, (List.dropLast_append_getLast hne).symm, by simp [h]⟩

/-- What a run of a bus op's steps never writes: the parameters, INIT_DONE, the other contexts, and CMD, OVR and TXBUF of
its own (R34, R46, R65). -/
structure RunKept (s t : State) : Prop where
  cfg : t.cfg = s.cfg
  cur : t.cur = s.cur
  initDone : t.initDone = s.initDone
  ctx : CtxKept s t

theorem ctxKept_trans {s u t : State} (hcur : u.cur = s.cur) (h : CtxKept s u) (h' : CtxKept u t) : CtxKept s t := by
  obtain ⟨hlen, hctx, hcmd, hovr, htx⟩ := h
  obtain ⟨hlen', hctx', hcmd', hovr', htx'⟩ := h'
  rw [hcur] at hctx'
  exact ⟨hlen'.trans hlen, fun k hk => (hctx' k hk).trans (hctx k hk), hcmd'.trans hcmd, hovr'.trans hovr,
    htx'.trans htx⟩

theorem exec_runKept {i : Instr} {x : StepInput} {s t : State} (hb : isBus i) (h : exec i (s.withInput x) = .next t) :
    RunKept s t := by
  have hm := exec_move h
  obtain ⟨hcfg, -, -, -, -, -, -, hcur, -, -⟩ := move_outsideKept hm
  have hinit : i ≠ .init := by
    rintro rfl
    exact hb rfl
  exact ⟨hcfg, hcur, move_initDone (s := s.withInput x) hm hinit, move_ctxKept (s := s.withInput x) hm⟩

theorem opRun_runKept {i : Instr} {xs : List StepInput} {s t : State} (hb : isBus i) (h : opRun i xs s = .next t) :
    RunKept s t := by
  induction xs generalizing s with
  | nil => cases h; exact ⟨rfl, rfl, rfl, rfl, fun _ _ => rfl, rfl, rfl, rfl⟩
  | cons x xs ih =>
    obtain ⟨u, hu, h'⟩ := opRun_cons_next h
    have h1 := exec_runKept hb hu
    have h2 := ih h'
    exact ⟨h2.cfg.trans h1.cfg, h2.cur.trans h1.cur, h2.initDone.trans h1.initDone, ctxKept_trans h1.cur h1.ctx h2.ctx⟩

/-! ### From the first poll to the finish -/

/-- The bus is free: no claim, and no transaction on the wire (R33, R36, R109). -/
structure BusFree (s : State) : Prop where
  ready : s.ready = true
  xfer : s.xfer = false
  csN : s.csN = true
  slot : s.slot = 0

theorem BusFree.withInput {s : State} (h : BusFree s) (x : StepInput) : BusFree (s.withInput x) :=
  ⟨h.ready, h.xfer, h.csN, h.slot⟩

theorem BusFree.of_onlyOwnOp {s u : State} (h : BusFree s) (ho : OnlyOwnOp s u) : BusFree u := by
  obtain ⟨-, -, -, ⟨hready, -⟩, ⟨hx, hcs, -, -, hslot, -⟩, -⟩ := ho
  exact ⟨hready.trans h.ready, hx.trans h.xfer, hcs.trans h.csN, hslot.trans h.slot⟩

/-- A bus op stands before its first poll, with its LAT and the bus free. -/
structure BeforePoll (l : Latch) (s : State) : Prop where
  standing : Standing s .poll
  lat : s.me.lat = some l
  free : BusFree s

/-- What the run of bus op i leaves from its first poll in state s on: the frame it sends, the bytes ms it receives, and
the effects of its commit step at time `time` (R109, R117, R118). -/
structure BusRun (i : Instr) (l : Latch) (s : State) (ms : List Byte) (time : Word) (t : State) : Prop where
  finished : Finished t .ok (busResult i l t)
  tx : t.tx = latchedFrame i l s
  snap : t.snap.toList = ms
  rxbuf : t.me.rxbuf = t.snap
  snapTime : t.snapTime = if l.kind = .sensorRead then time else s.snapTime
  beak : (t.beakR, t.beakG, t.beakB) =
    if isSingleLed i = true ∧ l.port = 0 then (l.red, l.green, l.blue) else (s.beakR, s.beakG, s.beakB)
  ready : t.ready = true
  owner : t.owner = none
  xfer : t.xfer = false
  csN : t.csN = true

theorem BeforePoll.withInput {l : Latch} {s : State} (h : BeforePoll l s) (x : StepInput) :
    BeforePoll l (s.withInput x) :=
  ⟨h.standing, h.lat, h.free.withInput x⟩

/-- The poll that finds the bus free (R115). -/
theorem exec_poll_claims {i : Instr} {l : Latch} {s : State} (hb : isBus i) (h : BeforePoll l s) :
    exec i s = .next (claim s) := by
  obtain ⟨-, hp⟩ := h.standing
  rw [exec_poll hb h.lat hp, pollStep, if_pos h.free.ready]

/-- The transaction after the claim. -/
theorem opRun_from_claim {i : Instr} {l : Latch} {s : State} {ys : List StepInput} (hb : isBus i) (h : BeforePoll l s)
    (hlen : ys.length = 16) : ∃ u, opRun i ys (claim s) = .next u ∧ Standing u .commit ∧ u.owner = some u.cur
      ∧ u.me.lat = some l ∧ u.tx = latchedFrame i l s ∧ u.rx.toList = ys.map (fun y => y.pins.miso)
      ∧ u.csN = true ∧ u.xfer = false ∧ CacheKept s u := by
  obtain ⟨hc, -⟩ := h.standing
  have hme := claim_me hc
  obtain ⟨u, hrun, htx, hrx, hcs, hx, -, hume, -, hcache, ⟨-, -, howner⟩, -⟩ :=
    transactionSendsFrame i l (claim s) ys hb ⟨by simpa using hc, by rw [hme]⟩ rfl (by rw [hme]; exact h.lat)
      h.free.xfer h.free.csN h.free.slot hlen
  have hk := opRun_runKept hb hrun
  have hcu : u.cur < u.ctxs.length := by
    obtain ⟨hlength, -⟩ := hk.ctx
    rw [hlength, hk.cur]
    simpa using hc
  refine ⟨u, hrun, ⟨hcu, by rw [hume]⟩, by rw [howner, hk.cur]; rfl, by rw [hume, hme]; exact h.lat, ?_, hrx, hcs, hx,
    hcache⟩
  rw [htx]
  exact latchedFrame_congr i l rfl rfl rfl rfl

/-- An op that finds the bus free at its first poll sends its frame and commits. -/
theorem opRun_from_poll {i : Instr} {l : Latch} {s : State} (x z : StepInput) {ys : List StepInput} (hb : isBus i)
    (h : BeforePoll l s) (hlen : ys.length = 16) :
    ∃ t, opRun i (x :: (ys ++ [z])) s = .next t ∧ BusRun i l s (ys.map fun y => y.pins.miso) z.now t := by
  obtain ⟨u, hrun, hs, howner, hlat, htx, hrx, hcs, hx, ⟨hR, hG, hB, -, htime⟩⟩ :=
    opRun_from_claim hb (h.withInput x) hlen
  obtain ⟨t, ht, hfin, hsnap, hrxbuf, hst, hbeak, hready, hown, -, -, -, ⟨hxfer, hcsN, htx', -⟩, -⟩ :=
    commitCompletesBusOp i l (u.withInput z) hb hs howner hlat
  refine ⟨t, ?_, hfin, ?_, ?_, ?_, ?_, ?_, hready, hown, ?_, ?_⟩
  · rw [opRun_cons (exec_poll_claims hb (h.withInput x)), opRun_append hrun, opRun_singleton ht]
  · exact htx'.trans (htx.trans (latchedFrame_congr i l rfl rfl rfl rfl))
  · rw [hsnap]
    exact hrx
  · rw [hrxbuf, hsnap]
  · rw [hst]
    exact congrArg _ htime
  · rw [hbeak]
    exact congrArg (ite _ _) (by simpa [State.withInput] using ⟨hR, hG, hB⟩)
  · exact hxfer.trans hx
  · exact hcsN.trans hcs

/-! ### A plain bus op before its first poll -/

theorem cur_lt_of_onlyOwnOp {s u : State} (hc : s.cur < s.ctxs.length) (h : OnlyOwnOp s u) :
    u.cur < u.ctxs.length := by
  obtain ⟨⟨hlength, -⟩, -, -, -, -, -, -, -, -, -, -, -, hcur, -, -⟩ := h
  rwa [hlength, hcur]

/-- The port in the LAT of SET_SINGLE_LED is the clamped port (R129, R139). -/
theorem port_of_decode {port r g b : Nat} {s t : State} {l : Latch} (hs : Standing s .decode)
    (ht : exec (.setSingleLed port r g b) s = .next t) (hl : t.me.lat = some l) : l.port = clampPort port := by
  obtain ⟨u, hu, -, hme⟩ := plainOp_goes_on (i := .setSingleLed port r g b) rfl rfl hs
  cases ht.symm.trans hu
  rw [hme] at hl
  cases hl
  rfl

/-- The op that sets the beak at its commit is the one whose port operand is the beak's (R37, R129, R139). -/
theorem setsBeak_iff {i : Instr} {s t : State} {l : Latch} (hs : Standing s .decode) (ht : exec i s = .next t)
    (hl : t.me.lat = some l) : isSingleLed i = true ∧ l.port = 0 ↔ isBeakOp i = true := by
  cases i with
  | setSingleLed port r g b => simp [port_of_decode hs ht hl, isSingleLed, isBeakOp, clampPort]
  | _ => simp [isSingleLed, isBeakOp]

/-- The decode step of a plain bus op that its decode check lets pass (R124). -/
theorem plain_beforePoll {i : Instr} {s : State} (hi : i.opClass = .plainBus) (hcheck : decodeCheck i s.cfg = none)
    (hs : Standing s .decode) (hfree : BusFree s) : ∃ l u, exec i s = .next u ∧ BeforePoll l u ∧ CacheKept s u
      ∧ (latchedFrame i l u).toList = wireFrame i s.me.txbuf s ∧ (l.kind = .sensorRead ↔ readsSensors i = true)
      ∧ (if isSingleLed i = true ∧ l.port = 0 then (l.red, l.green, l.blue) else (s.beakR, s.beakG, s.beakB)) =
        (if isBeakOp i then beakOperands i else (s.beakR, s.beakG, s.beakB)) := by
  obtain ⟨u, l, hu, hown, hme, -, hkind, hbeak, hframe⟩ := (plainOpDecodes i s hi hs).2 hcheck
  have ⟨hc, _⟩ := hs
  have hlat : u.me.lat = some l := by rw [hme]
  have ⟨_, _, hcache, _, _, hcfg, _⟩ := hown
  have ⟨hR, hG, hB, _⟩ := hcache
  refine ⟨l, u, hu, ⟨⟨cur_lt_of_onlyOwnOp hc hown, by rw [hme]⟩, hlat, hfree.of_onlyOwnOp hown⟩, hcache, ?_, hkind, ?_⟩
  · rw [latchedFrame_congr i l hcfg hR hG hB]
    exact hframe s rfl
  · by_cases h : isBeakOp i = true
    · obtain ⟨-, hcolours⟩ := hbeak h
      rw [if_pos ((setsBeak_iff hs hu hlat).mpr h), if_pos h, hcolours]
    · rw [if_neg (mt (setsBeak_iff hs hu hlat).mp h), if_neg h]

/-! ### A cache op before its first poll -/

theorem stale_eq_true_iff (t m : Word) (s : State) : stale t m s = true ↔ (m.toNat : Int) < ageAt t s := by
  rw [← Bool.not_eq_false, stale_eq_false_iff, not_le]

theorem cacheOp_age_stale {s : State} {l' : Latch} (l : Latch) (maxAge : Latch → State → Word)
    (fresh drop : Latch → State → State) (value : Latch → State → Int) (hp : s.me.phase = .age)
    (hl : s.me.lat = some l') (ha : ((maxAge l' s).toNat : Int) < ageAt s.now s) :
    cacheOp l maxAge fresh drop value s = .next (goPoll s) := by
  rw [cacheOp_age _ _ _ _ _ hp hl, if_pos ((stale_eq_true_iff _ _ _).mpr ha)]

theorem getterOp_age_stale {s : State} {l' : Latch} (l : Latch) (eval : Latch → State → Int) (hp : s.me.phase = .age)
    (hl : s.me.lat = some l') (ha : (s.cfg.staleWindow.toNat : Int) < ageAt s.now s) :
    getterOp l eval s = .next (goPoll s) :=
  cacheOp_age_stale _ _ _ _ _ hp hl ha

/-- A cache op whose snapshot is stale goes to its polls (R146, R147, R151). -/
theorem exec_age_stale {i : Instr} {s : State} {l : Latch} (hi : i.opClass = .cache) (hp : s.me.phase = .age)
    (hl : s.me.lat = some l) (hm : ∀ n, i = .refresh n → l.maxAge.toNat = n)
    (ha : (maxAgeOf i s.cfg : Int) < ageAt s.now s) : exec i s = .next (goPoll s) := by
  cases i with
  | refresh n => exact cacheOp_age_stale _ (fun l' _ => l'.maxAge) _ _ _ hp hl (by rw [hm n rfl]; exact ha)
  | getDistance | getLight | getLine | getBattery | getEncoder | getPosflag =>
    exact getterOp_age_stale _ _ hp hl ha
  | _ => cases hi

/-- Of LAT a cache op's value reads only the side (R147). -/
theorem busResult_congr {i : Instr} {l l' : Latch} (hi : i.opClass = .cache) (h : l'.sel = l.sel) (s : State) :
    busResult i l' s = busResult i l s := by
  cases i with
  | refresh | getDistance | getBattery | getPosflag => rfl
  | getLight | getLine | getEncoder => simp only [busResult, evalLight, evalLine, evalEncoder, h]
  | _ => cases hi

theorem isSingleLed_of_cache {i : Instr} (hi : i.opClass = .cache) : isSingleLed i = false := by
  cases i with
  | setSingleLed => cases hi
  | _ => rfl

theorem beforePoll_goPoll {s : State} {l : Latch} (hc : s.cur < s.ctxs.length) (hl : s.me.lat = some l)
    (hfree : BusFree s) : BeforePoll l (goPoll s) := by
  have hme := goPoll_me hc
  exact ⟨⟨by simpa using hc, by rw [hme]⟩, by rw [hme]; exact hl, hfree.ready, hfree.xfer, hfree.csN, hfree.slot⟩

/-- The decode and age steps of a cache op on a stale snapshot (R147). -/
theorem cache_beforePoll {i : Instr} {s : State} (x y : StepInput) (hi : i.opClass = .cache)
    (hwf : i.wellFormed = true) (hs : Standing s .decode) (hfree : BusFree s)
    (ha : (maxAgeOf i s.cfg : Int) < ageAt y.now s) :
    ∃ l u, (∀ xs, opRun i (x :: y :: xs) s = opRun i xs u) ∧ BeforePoll l u ∧ CacheKept s u ∧ u.cfg = s.cfg
      ∧ l.kind = .sensorRead ∧ l.sel = (sideOf i).val := by
  obtain ⟨u, l, hu, hown, hme, -, hkind, hsel, hmax⟩ := cacheOpDecodes i (s.withInput x) hi hwf hs
  obtain ⟨hc, -⟩ := hs
  have hcu : u.cur < u.ctxs.length := cur_lt_of_onlyOwnOp (s := s.withInput x) hc hown
  have hfree' : BusFree u := (hfree.withInput x).of_onlyOwnOp hown
  have hlat : u.me.lat = some l := by rw [hme]
  have ⟨_, _, hcache, _, _, hcfg, _⟩ := hown
  have ⟨_, _, _, _, htime⟩ := hcache
  have hpoll : exec i (u.withInput y) = .next (goPoll (u.withInput y)) := by
    refine exec_age_stale hi (congrArg Ctx.phase hme) hlat hmax ?_
    simpa [State.withInput, ageAt, hcfg, htime] using ha
  exact ⟨l, goPoll (u.withInput y), fun xs => by rw [opRun_cons hu, opRun_cons hpoll],
    beforePoll_goPoll (s := u.withInput y) hcu hlat (hfree'.withInput y), hcache, hcfg, hkind, hsel⟩

end Sys2Proof.Proofs
end

section
open Sys2Proof Sys2Proof.Machine Sys2Proof.Claims Sys2Proof.Proofs

/-- Settles O30: the decode step, the poll that claims, the transaction of O29 and the commit of O27, one after the
other. -/
theorem uncontendedPlainOpRuns : Obligations.UncontendedPlainOpRuns := by
  intro i s xs hi hcheck hs hready hx hcs hslot hlen
  match xs, hlen with
  | x :: y :: xs, hlen =>
  obtain ⟨ys, z, rfl, hys⟩ := exists_append_singleton (n := 16) (by simpa using hlen)
  have hb : isBus i := by simp [isBus, hi]
  obtain ⟨l, u, hu, hbefore, ⟨hR, hG, hB, -, htime⟩, hframe, hkind, hbeak⟩ :=
    plain_beforePoll (s := s.withInput x) hi hcheck hs ⟨hready, hx, hcs, hslot⟩
  obtain ⟨t, ht, hrun⟩ := opRun_from_poll y z hb hbefore hys
  have hall : opRun i (x :: y :: (ys ++ [z])) s = .next t := by rw [opRun_cons hu, ht]
  have hk := opRun_runKept hb hall
  refine ⟨t, hall, ?_, by rw [hrun.tx]; exact hframe, ?_, hrun.rxbuf, ?_, ?_, hrun.ready, hrun.owner, hk.initDone,
    hrun.xfer, hrun.csN, hk.cfg, hk.ctx⟩
  · have hfin := hrun.finished
    rwa [plain_result hi] at hfin
  · rw [hrun.snap]
    simp [hys]
  · rw [hrun.snapTime, if_congr hkind rfl htime]
    simp [hys, State.withInput]
  · rw [hrun.beak, hR, hG, hB]
    exact hbeak

/-- Settles O31: as O30, with the age step on a stale snapshot before the poll; the value is read after the commit. -/
theorem uncontendedCacheOpRuns : Obligations.UncontendedCacheOpRuns := by
  intro i s xs hi hwf hs hready hx hcs hslot hlen hage
  match xs, hlen with
  | x :: y :: p :: xs, hlen =>
  obtain ⟨ys, z, rfl, hys⟩ := exists_append_singleton (n := 16) (by simpa using hlen)
  have hb : isBus i := by simp [isBus, hi]
  obtain ⟨l, u, hstart, hbefore, ⟨hR, hG, hB, -⟩, hcfg, hkind, hsel⟩ :=
    cache_beforePoll x y hi hwf hs ⟨hready, hx, hcs, hslot⟩ hage
  obtain ⟨t, ht, hrun⟩ := opRun_from_poll p z hb hbefore hys
  have hall : opRun i (x :: y :: p :: (ys ++ [z])) s = .next t := by rw [hstart, ht]
  have hk := opRun_runKept hb hall
  refine ⟨t, hall, ?_, ?_, ?_, hrun.rxbuf, ?_, ?_, hrun.ready, hrun.owner, hk.initDone, hrun.xfer, hrun.csN, hk.cfg,
    hk.ctx⟩
  · rw [busResult_congr hi hsel.symm]
    exact hrun.finished
  · rw [hrun.tx, cache_frame hi]
    simp only [hcfg]
    rfl
  · rw [hrun.snap]
    simp [hys]
  · rw [hrun.snapTime, if_pos hkind]
    simp [hys]
  · rw [hrun.beak, isSingleLed_of_cache hi, hR, hG, hB]
    simp

end

section
/-! SUPPORT. The poll that times out, and one byte slot of a transaction: what it sends and receives from either kind of
slot, and what it leaves alone (R109, R110, R112, R116). -/

namespace Sys2Proof.Proofs

open Sys2Proof Sys2Proof.Machine Sys2Proof.Claims

/-! ### The last failed poll -/

/-- A bus op's value reads only the parameters, the snapshot and the beak, and no context (R147). -/
theorem busResult_updMe (i : Instr) (l : Latch) (s : State) (f : Ctx → Ctx) :
    busResult i l (s.updMe f) = busResult i l s := by
  cases i <;> rfl

/-- A poll that finds the bus taken for the ACQ_MAX-th time counts it and ends the op (R115, R116). -/
theorem pollStep_timeout {s : State} (timeout : State → State) (hr : s.ready = false)
    (hn : s.me.polls + 1 = s.cfg.acqMax) :
    pollStep timeout s = timeout (s.updMe fun c => { c with polls := c.polls + 1 }) := by
  rw [pollStep, if_neg (by simp [hr]), if_pos hn]

/-! ### A byte slot -/

/-- The state whose frame a byte slot shifts, where chip-select is the complement of G.XFER and a transaction begins at
slot 0: chip-select is low, and the frame is the one under way or the op's own (R109). -/
theorem begun_eq {s : State} (build : Latch → State → Frame) (l : Latch) (hcs : s.csN = !s.xfer)
    (hslot : s.xfer = false → s.slot = 0) :
    begun build l s = { s with xfer := true, csN := false, tx := if s.xfer then s.tx else build l s } := by
  unfold begun
  cases hx : s.xfer with
  | true =>
    have hs : s = { s with xfer := s.xfer, csN := !s.xfer } := by rw [← hcs]
    rw [hx] at hs
    exact hs
  | false =>
    rw [if_neg Bool.false_ne_true, beginFrame, ← hslot hx]
    rfl

/-- A byte slot of a bus op writes neither the cache nor the arbiter, nor what no op writes (R109). -/
theorem move_slot_kept {i : Instr} {s t : State} (h : Move i s t) (hb : isBus i) (hp : s.me.phase = .xfer) :
    CtxKept s t ∧ CacheKept s t ∧ ArbiterKept s t ∧ OutsideKept s t := by
  have hinit : i ≠ .init := by rintro rfl; exact hb rfl
  have hpoll : s.me.phase ≠ .poll := by simp [hp]
  have hcommit : s.me.phase ≠ .commit := by simp [hp]
  exact ⟨move_ctxKept h, move_cacheKept h hcommit,
    ⟨move_ready h hinit hpoll hcommit, move_initDone h hinit, move_owner h hpoll hcommit⟩, move_outsideKept h⟩

end Sys2Proof.Proofs
end

section
open Sys2Proof Sys2Proof.Machine Sys2Proof.Claims Sys2Proof.Proofs

/-- Settles O23: the last failed poll is two writes of context cur, the count and the finish, and the value it finishes
with reads no context. -/
theorem timeoutDropsOp : Obligations.TimeoutDropsOp := by
  rintro i l s hb ⟨hc, hp⟩ hl hr hn
  refine ⟨_, by rw [exec_poll hb hl hp, pollStep_timeout _ hr hn, busResult_updMe], finish_finished _ _ (by simpa), ?_⟩
  rw [finish, updMe_updMe]
  exact onlyOwnOp_updMe _ hc rfl rfl rfl rfl

/-- Settles O28: a byte slot shifts the frame of the state that `begun_eq` gives, and slot 15 then ends the
transaction. -/
theorem byteSlotExchangesOneByte : Obligations.ByteSlotExchangesOneByte := by
  rintro i l s hb ⟨hc, hp⟩ ho hl hcs hslot
  have hexec := exec_xfer hb hl hp ho
  have hkept := move_slot_kept (exec_move hexec) hb hp
  rw [byteStep_eq, begun_eq _ _ hcs hslot] at hexec hkept
  by_cases hlast : s.slot = 15
  · rw [if_pos hlast] at hexec hkept
    exact ⟨_, hexec, rfl, rfl, rfl, fun hne => absurd hlast hne, fun _ => ⟨rfl, rfl, rfl, endFrame_me hc⟩, hkept⟩
  · rw [if_neg hlast] at hexec hkept
    exact ⟨_, hexec, rfl, rfl, rfl, fun _ => ⟨rfl, rfl, rfl, rfl⟩, fun h => absurd h hlast, hkept⟩

end

section
/-! SUPPORT. The fields of a command frame give back what they are made of: the velocity byte its sign and magnitude,
the colour byte its percent, the tick field its count (R98 to R104, R131, R136). -/

namespace Sys2Proof.Proofs

open Sys2Proof Sys2Proof.Machine Sys2Proof.Claims

/-! ### The velocity byte -/

/-- The velocity byte is its sign bit and its magnitude (R98). -/
theorem convertSpeed_toNat (cfg : Config) (p : Int) :
    (convertSpeed cfg p).toNat = (if 0 < p then 128 else 0) + speedMagnitude cfg p := by
  have hlt := speedMagnitude_lt cfg p
  obtain ⟨hor, hand⟩ := signBit_or _ hlt
  simp only [convertSpeed]
  split
  · rw [hor, BitVec.toNat_ofNat]
    omega
  · rw [hand, BitVec.toNat_ofNat]
    omega

theorem convertSpeed_sign (cfg : Config) (p : Int) :
    (convertSpeed cfg p).toNat / 128 = if 0 < p then 1 else 0 := by
  have hlt := speedMagnitude_lt cfg p
  rw [convertSpeed_toNat]
  split <;> omega

theorem convertSpeed_magnitude (cfg : Config) (p : Int) :
    (convertSpeed cfg p).toNat % 128 = speedMagnitude cfg p := by
  have hlt := speedMagnitude_lt cfg p
  rw [convertSpeed_toNat]
  split <;> omega

theorem toNat_and_low7 (b : Byte) : (b &&& 0x7F).toNat = b.toNat % 128 := by
  rw [BitVec.toNat_and]
  exact Nat.and_two_pow_sub_one_eq_mod _ 7

/-- The low seven bits of the velocity byte are the magnitude (R98, R132). -/
theorem convertSpeed_low7 (cfg : Config) (p : Int) : (convertSpeed cfg p &&& 0x7F).toNat = speedMagnitude cfg p := by
  rw [toNat_and_low7, convertSpeed_magnitude]

theorem getLsbD_seven_iff (b : Byte) : b.getLsbD 7 = true ↔ b.toNat / 128 = 1 := by
  have h := getLsbD_seven b
  split at h <;> simp_all <;> omega

theorem convertSpeed_bit7 (cfg : Config) (p : Int) : (convertSpeed cfg p).getLsbD 7 = true ↔ 0 < p := by
  rw [getLsbD_seven_iff, convertSpeed_sign]
  split <;> simp_all

/-! ### The magnitude (R131, R132) -/

theorem speedMagnitude_neg (cfg : Config) (p : Int) : speedMagnitude cfg (-p) = speedMagnitude cfg p := by
  simp only [speedMagnitude, Int.natAbs_neg]

theorem speedMagnitude_zero (cfg : Config) : speedMagnitude cfg 0 = 0 := by simp [speedMagnitude]

/-- Rounding, the floor and the saturation are each non-decreasing. -/
theorem speedMagnitude_mono (cfg : Config) {p q : Int} (h : p.natAbs ≤ q.natAbs) :
    speedMagnitude cfg p ≤ speedMagnitude cfg q := by
  have hm : (p.natAbs * cfg.kSpd.toNat + 32768) / 65536 ≤ (q.natAbs * cfg.kSpd.toNat + 32768) / 65536 :=
    Nat.div_le_div_right (Nat.add_le_add_right (Nat.mul_le_mul_right _ h) _)
  simp only [speedMagnitude]
  split <;> split <;> omega

/-- A magnitude that is not 0 is at least MIN_MAG. -/
theorem speedMagnitude_floor (cfg : Config) (p : Int) :
    speedMagnitude cfg p = 0 ∨ min cfg.minMag.val 127 ≤ speedMagnitude cfg p := by
  simp only [speedMagnitude]
  split <;> omega

/-- With MIN_MAG = 0 there is no floor. -/
theorem speedMagnitude_of_no_floor {cfg : Config} (h : cfg.minMag.val = 0) (p : Int) :
    (speedMagnitude cfg p : Int) = min (rnd ((p.natAbs : ℚ) * uq16 cfg.kSpd)) 127 := by
  rw [speedMagnitude_eq, h, rnd_uq16, if_neg (by omega)]

/-! ### The colour byte (R100) -/

theorem colourByte_toNat (c : Percent) : (colourByte c).toNat = (c.val * 255 + 50) / 100 := by
  rw [colourByte, BitVec.toNat_ofNat]
  omega

theorem colourByte_strictMono {c d : Percent} (h : c < d) : (colourByte c).toNat < (colourByte d).toNat := by
  have hlt : c.val < d.val := h
  rw [colourByte_toNat, colourByte_toNat]
  omega

theorem colourByte_injective : Function.Injective colourByte :=
  have hmono : StrictMono fun c => (colourByte c).toNat := fun _ _ => colourByte_strictMono
  fun _ _ h => hmono.injective (congrArg BitVec.toNat h)

/-! ### The tick field (R99, R104) -/

/-- The three bytes of a tick field, most significant first, give back its 24 bits (R99). -/
theorem toNat_three_bytes (t : BitVec 24) : (t.extractLsb' 16 8).toNat * 65536 + (t.extractLsb' 8 8).toNat * 256
    + (t.extractLsb' 0 8).toNat = t.toNat := by
  have hlt := t.isLt
  simp only [BitVec.extractLsb'_toNat, Nat.shiftRight_eq_div_pow]
  omega

theorem tickField_motorFrame_left (cfg : Config) (vl vr : Byte) (tl tr : BitVec 24) :
    tickField (motorFrame cfg vl tl vr tr) 2 = tl.toNat := toNat_three_bytes tl

theorem tickField_motorFrame_right (cfg : Config) (vl vr : Byte) (tl tr : BitVec 24) :
    tickField (motorFrame cfg vl tl vr tr) 6 = tr.toNat := toNat_three_bytes tr

/-! ### The LED frames (R102, R103) -/

theorem setAllFrame_tail (cfg : Config) (u v w r g b : Percent) : ∀ j < 4,
    (setAllFrame cfg u v w r g b).toList[4 + 3 * j]? = some (colourByte r)
      ∧ (setAllFrame cfg u v w r g b).toList[5 + 3 * j]? = some (colourByte g)
      ∧ (setAllFrame cfg u v w r g b).toList[6 + 3 * j]? = some (colourByte b)
  | 0, _ | 1, _ | 2, _ | 3, _ => ⟨rfl, rfl, rfl⟩

/-- The port byte of a clamped port (R129). -/
theorem toNat_portByte {p : Nat} (h : p ≤ 4) : (BitVec.ofNat 8 p).toNat = p := by
  rw [BitVec.toNat_ofNat]
  omega

theorem setSingleFrame_injective {cfg : Config} {p p' : Nat} {r g b r' g' b' : Percent} (hp : p ≤ 4) (hp' : p' ≤ 4)
    (h : setSingleFrame cfg p r g b = setSingleFrame cfg p' r' g' b') : p = p' ∧ r = r' ∧ g = g' ∧ b = b' := by
  have hport : BitVec.ofNat 8 p = BitVec.ofNat 8 p' := congrArg (·[1]) h
  refine ⟨?_, colourByte_injective (congrArg (·[2]) h), colourByte_injective (congrArg (·[3]) h),
    colourByte_injective (congrArg (·[4]) h)⟩
  rw [← toNat_portByte hp, ← toNat_portByte hp', hport]

theorem setAllFrame_injective {cfg : Config} {u v w r g b u' v' w' r' g' b' : Percent}
    (h : setAllFrame cfg u v w r g b = setAllFrame cfg u' v' w' r' g' b') :
    u = u' ∧ v = v' ∧ w = w' ∧ r = r' ∧ g = g' ∧ b = b' :=
  ⟨colourByte_injective (congrArg (·[1]) h), colourByte_injective (congrArg (·[2]) h),
    colourByte_injective (congrArg (·[3]) h), colourByte_injective (congrArg (·[4]) h),
    colourByte_injective (congrArg (·[5]) h), colourByte_injective (congrArg (·[6]) h)⟩

end Sys2Proof.Proofs
end

section
/-! SUPPORT. The zero-tick guard as an invariant: what holds of each context, the decode step that makes it hold, and
the steps that keep it (R134, R135). -/

namespace Sys2Proof.Proofs

open Sys2Proof Sys2Proof.Machine Sys2Proof.Claims

/-! ### What holds of each context -/

/-- A MOVE or TURN past its decode step has a nonzero tick count in this context's LAT: TicksNonzero, context by
context. -/
def CtxTicks (c : Ctx) : Prop :=
  ∀ l, c.phase.latched = true → c.lat = some l → isBounded l.op = true → l.ticks ≠ 0

theorem ctxTicks_of_not_latched {c : Ctx} (h : c.phase.latched = false) : CtxTicks c := by
  intro l hp
  rw [h] at hp
  cases hp

/-- TicksNonzero is CtxTicks of every context, by number. -/
theorem ticksNonzero_iff (s : State) : TicksNonzero s ↔ ∀ k, CtxTicks (s.ctx k) := by
  refine ⟨fun h k => ?_, fun h c hc => ?_⟩
  · by_cases hk : k < s.ctxs.length
    · exact h _ (ctx_mem hk)
    · rw [ctx_beyond (Nat.le_of_not_lt hk)]
      exact ctxTicks_of_not_latched rfl
  · obtain ⟨k, rfl⟩ := exists_ctx_of_mem hc
    exact h k

/-- A context that keeps LAT, and that is past its decode step only if it was before. -/
theorem ctxTicks_of_lat {c d : Ctx} (h : CtxTicks c) (hl : d.lat = c.lat)
    (hp : d.phase.latched = true → c.phase.latched = true) : CtxTicks d :=
  fun l hd hlat => h l (hp hd) (hl.symm.trans hlat)

theorem ctxTicks_waited {c : Ctx} (d : Nat) (h : CtxTicks c) : CtxTicks (waited d c) := by
  rw [waited_eq]
  exact h

theorem ctxTicks_ctxWrite {c : Ctx} (off : Nat) (w : Word) (h : CtxTicks c) : CtxTicks (ctxWrite off w c) := by
  have hlat : (ctxWrite off w c).lat = c.lat := by rw [ctxWrite_frame]
  obtain ⟨hp, -⟩ | ⟨-, hp, -⟩ := ctxWrite_run off w c
  · exact ctxTicks_of_lat h hlat (by rw [hp]; exact id)
  · exact ctxTicks_of_not_latched (by rw [hp]; rfl)

theorem ticksNonzero_updCtx {s : State} {k : Nat} {f : Ctx → Ctx} (h : TicksNonzero s) (hf : CtxTicks (f (s.ctx k))) :
    TicksNonzero (s.updCtx k f) := by
  intro c hc
  obtain hc | ⟨-, rfl⟩ := mem_updCtx hc
  · exact h c hc
  · exact hf

/-! ### Reset, the event and the host -/

theorem ticksNonzero_atReset (cfg : Config) : TicksNonzero (State.atReset cfg) :=
  (ticksNonzero_iff _).mpr fun k => by
    rw [ctx_blockAtReset (blockAtReset_atReset cfg)]
    exact ctxTicks_of_not_latched rfl

theorem ticksNonzero_observed {s : State} (h : TicksNonzero s) : TicksNonzero (observed s) := by
  intro c hc
  obtain ⟨d, c', hc', rfl⟩ := mem_observed hc
  exact ctxTicks_waited d (h c' hc')

theorem ticksNonzero_hostAccess {s t : State} {a : HostAccess} (h : TicksNonzero s)
    (ht : hostAccess a s = .next t) : TicksNonzero t := by
  obtain ⟨v, rfl⟩ | rfl | ⟨b, w, -, -, -, -, rfl⟩ := hostAccess_next ht
  · exact h
  · exact h
  · exact ticksNonzero_updCtx h (ctxTicks_ctxWrite _ w ((ticksNonzero_iff s).mp h _))

theorem ticksNonzero_setRst {s : State} (level : Bool) (h : TicksNonzero s) : TicksNonzero (setRst level s) := by
  cases level with
  | false => exact ticksNonzero_atReset s.cfg
  | true => exact h

/-! ### The steps of an op -/

theorem opClass_of_isBounded {i : Instr} (h : isBounded i = true) : i.opClass = .plainBus := by
  cases i with
  | move | turn => rfl
  | _ => cases h

/-- A tick count that the zero-tick guard lets pass is not 0 in its 24 bits either (R133, R134). -/
theorem ofNat_ticks_ne_zero {a : Nat} {k : Word} (h : zeroTickGuard (ticks a k) = none) :
    BitVec.ofNat 24 (ticks a k) ≠ 0 := by
  have hne : ticks a k ≠ 0 := by
    intro h0
    simp [zeroTickGuard, h0] at h
  intro h0
  have hnat := congrArg BitVec.toNat h0
  rw [BitVec.toNat_ofNat, Nat.mod_eq_of_lt (ticks_lt a k)] at hnat
  exact hne hnat

/-- MOVE and TURN are the skeleton of R124 with a LAT whose tick count is not 0 where the zero-tick guard lets it pass
(R134, R142, R143). -/
theorem bounded_skeleton {i : Instr} (h : isBounded i = true) (s : State) :
    ∃ l stop, exec i s = plainOp l stop boundedBuild noEffect s ∧ (stop = none → l.ticks ≠ 0) := by
  cases i with
  | move | turn => exact ⟨_, _, rfl, ofNat_ticks_ne_zero⟩
  | _ => cases h

/-- An op that its decode step does not end has itself in LAT (R48). -/
theorem move_decode_lat {i : Instr} {s t : State} (h : Move i s t) (hp : s.me.phase = .decode)
    (hl : t.me.phase.latched = true) : ∃ l, t.me.lat = some l ∧ l.op = i := by
  have hc := move_cur_lt h
  have hfinish (code : RCode) (r : Int) (u : State) (hu : u.cur < u.ctxs.length) :
      (finish code r u).me.phase.latched ≠ true := by
    rw [finish_me code r hu]
    exact nofun
  cases h with
  | localDone l r => exact absurd hl (hfinish _ _ _ (by simpa))
  | initDone l =>
    rw [initEffect_eq] at hl
    exact absurd hl (hfinish _ _ _ (by simpa))
  | decodeStop l => exact absurd hl (hfinish _ _ _ (by simpa))
  | decodePoll l _ _ hop =>
    refine ⟨l, ?_, hop⟩
    rw [goPoll_me (by simpa), latch_me l hc]
  | decodeAge l _ _ hop =>
    refine ⟨l, ?_, hop⟩
    rw [goAge_me (by simpa), latch_me l hc]
  | _ => simp_all

/-- The decode step of MOVE and TURN is where the guard stands; another op's LAT holds another op. -/
theorem exec_decode_ctxTicks {i : Instr} {s t : State} (hs : Standing s .decode) (ht : exec i s = .next t) :
    CtxTicks t.me := by
  by_cases hb : isBounded i = true
  · obtain ⟨l, stop, hexec, hticks⟩ := bounded_skeleton hb s
    cases hstop : stop with
    | none =>
      obtain ⟨u, hu, -, hme⟩ := plainOp_goes_on hexec hstop hs
      cases ht.symm.trans hu
      intro l' _ hl' _
      rw [hme] at hl'
      cases hl'
      exact hticks hstop
    | some code =>
      obtain ⟨u, hu, ⟨-, -, -, hidle, -⟩, -⟩ := plainOp_stops hexec hstop hs
      cases ht.symm.trans hu
      exact ctxTicks_of_not_latched (by rw [hidle]; rfl)
  · obtain ⟨-, hp⟩ := hs
    intro l hlat hl hop
    obtain ⟨l', hl', rfl⟩ := move_decode_lat (exec_move ht) hp hlat
    cases hl.symm.trans hl'
    exact absurd hop hb

/-- A step of context cur keeps the other contexts. -/
theorem ticksNonzero_move {i : Instr} {s t : State} (h : TicksNonzero s) (hm : Move i s t) (hme : CtxTicks t.me) :
    TicksNonzero t := by
  obtain ⟨-, -, -, -, -, -, -, hcur, -, -⟩ := move_outsideKept hm
  refine (ticksNonzero_iff t).mpr fun k => ?_
  by_cases hk : k = s.cur
  · rwa [hk, ← hcur]
  · rw [move_ctx_ne hm hk]
    exact (ticksNonzero_iff s).mp h k

/-- A step past decode keeps LAT. -/
theorem ticksNonzero_move_latched {i : Instr} {s t : State} (h : TicksNonzero s) (hm : Move i s t)
    (hp : s.me.phase.latched = true) : TicksNonzero t := by
  have hne : s.me.phase ≠ .decode := fun hd => by rw [hd] at hp; cases hp
  have hme : CtxTicks s.me := (ticksNonzero_iff s).mp h s.cur
  exact ticksNonzero_move h hm (ctxTicks_of_lat hme ((move_ownWrite hm).lat hne) fun _ => hp)

theorem ticksNonzero_finish {s : State} (code : RCode) (r : Int) (h : TicksNonzero s) :
    TicksNonzero (finish code r s) :=
  ticksNonzero_updCtx h (ctxTicks_of_not_latched rfl)

/-- Every step of every agent keeps the tick counts nonzero (R135). -/
theorem ticksNonzero_step {s t : State} (h : TicksNonzero s) (ht : step s = .next t) : TicksNonzero t := by
  have hat (k : Nat) : TicksNonzero (atStep s k) := ticksNonzero_observed h
  cases step_move ht with
  | quiet => exact ticksNonzero_observed h
  | host a _ _ ha => exact ticksNonzero_hostAccess (ticksNonzero_observed h) ha
  | illegal k => exact ticksNonzero_finish .illegal 0 (hat k)
  | decode k i _ hk hp _ hexec =>
    obtain ⟨-, hlt, -⟩ := hk
    have hs : Standing (atStep s k) .decode := ⟨by simpa using hlt, by simpa using hp⟩
    exact ticksNonzero_move (hat k) (exec_move hexec) (exec_decode_ctxTicks hs hexec)
  | latched k l _ _ hp _ _ hexec => exact ticksNonzero_move_latched (hat k) (exec_move hexec) (by simpa using hp)
  | rst level => exact ticksNonzero_setRst level (ticksNonzero_observed h)

/-! ### The frame -/

/-- The frame under way after a byte slot: byte 0 builds it (R109). -/
theorem byteStep_tx (build : Latch → State → Frame) (l : Latch) (s : State) :
    (byteStep build l s).tx = if s.xfer then s.tx else build l s := by
  have hbegun : (begun build l s).tx = if s.xfer then s.tx else build l s := by
    unfold begun
    split <;> rfl
  rw [byteStep_eq, ← hbegun]
  split <;> rfl

theorem latchedFrame_of_isBounded {i : Instr} (h : isBounded i = true) (l : Latch) (s : State) :
    latchedFrame i l s = motorFrame s.cfg l.velL l.ticks l.velR l.ticks := by
  cases i with
  | move | turn => rfl
  | _ => cases h

end Sys2Proof.Proofs
end

section
open Sys2Proof Sys2Proof.Machine Sys2Proof.Claims Sys2Proof.Proofs

/-- Settles O36: the invariant is `ticksNonzero_step`; the frame's two tick fields are LAT's count; and the zero-tick
guard is the decode check of O25. -/
theorem noZeroTickFrame : Obligations.NoZeroTickFrame := by
  refine ⟨ticksNonzero_atReset _, fun _ _ => ticksNonzero_step, ?_, ?_⟩
  · rintro s t l h ⟨-, hp⟩ hl hb hx ht
    have hbus : isBus l.op := by simp [isBus, opClass_of_isBounded hb]
    have hexec := exec_xfer hbus hl hp (move_xfer_owner (exec_move ht) hp)
    cases ht.symm.trans hexec
    have hticks : l.ticks.toNat ≠ 0 := fun h0 =>
      (ticksNonzero_iff s).mp h s.cur l (by rw [← State.me, hp]; rfl) hl hb (BitVec.eq_of_toNat_eq h0)
    rw [byteStep_tx, hx, if_neg Bool.false_ne_true, latchedFrame_of_isBounded hb, tickField_motorFrame_left,
      tickField_motorFrame_right]
    exact ⟨hticks, hticks⟩
  · intro i s t hb hcheck hs ht
    obtain ⟨hstop, -⟩ := plainOpDecodes i s (opClass_of_isBounded hb) hs
    obtain ⟨u, hu, ⟨-, -, -, hidle, -⟩, -, -, -, -, htransport, -⟩ := hstop .noxfer hcheck
    cases ht.symm.trans hu
    exact ⟨hidle, htransport⟩

/-- Settles O35: the tick count is the decode check of O25, and SET_WHEELS has no check. -/
theorem zeroTickGuard : Obligations.ZeroTickGuard := by
  intro dir spd amt s hs
  obtain ⟨hmove, hmove'⟩ := plainOpDecodes (.move dir spd amt) s rfl hs
  obtain ⟨hturn, hturn'⟩ := plainOpDecodes (.turn dir spd amt) s rfl hs
  refine ⟨fun h => hmove .noxfer (if_pos h), fun h => hturn .noxfer (if_pos h), fun h => ?_, fun h => ?_,
    fun lspd rspd => ?_⟩
  · obtain ⟨t, l, ht, -, hme, -⟩ := hmove' (if_neg h)
    exact ⟨t, ht, by rw [hme]⟩
  · obtain ⟨t, l, ht, -, hme, -⟩ := hturn' (if_neg h)
    exact ⟨t, ht, by rw [hme]⟩
  · obtain ⟨-, hwheels⟩ := plainOpDecodes (.setWheels lspd rspd) s rfl hs
    obtain ⟨t, l, ht, -, hme, -⟩ := hwheels rfl
    exact ⟨t, l, ht, by rw [hme], by rw [hme], tickField_motorFrame_left _ _ _ 0 0,
      tickField_motorFrame_right _ _ _ 0 0⟩

/-- Settles O37: the model's integer rounding is the rational one. -/
theorem convertSpeedFormula : Obligations.ConvertSpeedFormula := fun cfg p _ _ => convertSpeed_eq cfg p

/-- Settles O38: bit 7 of the velocity byte is the sign and the rest is the magnitude, whose laws they are. -/
theorem convertSpeedLaws : Obligations.ConvertSpeedLaws := by
  intro cfg p q _ _ _ _
  have hlow := convertSpeed_low7 cfg
  refine ⟨fun h => ?_, convertSpeed_bit7 cfg p, ?_, ?_, fun _ => ?_, fun h => ?_, fun hp h => ?_⟩
  · rw [hlow, hlow]
    exact speedMagnitude_mono cfg h
  · exact BitVec.eq_of_toNat_eq (by rw [convertSpeed_toNat, speedMagnitude_zero]; rfl)
  · exact BitVec.eq_of_toNat_eq (by rw [hlow, hlow, speedMagnitude_neg])
  · rw [hlow]
    exact speedMagnitude_floor cfg p
  · rw [hlow]
    exact speedMagnitude_of_no_floor h p
  · have hm : speedMagnitude cfg p = 0 := by rw [← hlow, h]; rfl
    exact BitVec.eq_of_toNat_eq (by rw [convertSpeed_toNat, hm, if_pos hp]; rfl)

/-- Settles O39: the model's integer rounding is the rational one, and the minimum fits 24 bits. -/
theorem ticksFormula : Obligations.TicksFormula := fun a k => ⟨ticks_eq a k, ticks_lt a k⟩

/-- Settles O40: each frame is its bytes written out, and each byte or field gives back what it is made of. -/
theorem frameFieldsRecover : Obligations.FrameFieldsRecover := by
  refine ⟨fun _ _ => colourByte_strictMono, fun cfg p => ⟨convertSpeed_sign cfg p, convertSpeed_magnitude cfg p⟩, ?_,
    ?_, ?_, fun _ _ _ _ _ _ _ _ _ => setSingleFrame_injective, fun _ _ _ _ _ _ _ _ _ _ _ _ _ => setAllFrame_injective⟩
  · intro cfg vl vr tl tr
    exact ⟨rfl, rfl, tickField_motorFrame_left _ _ _ _ _, rfl, tickField_motorFrame_right _ _ _ _ _⟩
  · intro cfg p r g b hp
    exact ⟨rfl, toNat_portByte hp, rfl, rfl, rfl⟩
  · intro cfg u v w r g b j hj
    exact ⟨rfl, rfl, rfl, rfl, setAllFrame_tail cfg u v w r g b j hj⟩

end

section
/-! SUPPORT. The age step of a cache op: the frame of going to the polls, and how the op ends on a fresh snapshot
(R147, R151). -/

namespace Sys2Proof.Proofs

open Sys2Proof Sys2Proof.Machine Sys2Proof.Claims

theorem onlyOwnOp_goPoll {s : State} (hc : s.cur < s.ctxs.length) : OnlyOwnOp s (goPoll s) :=
  onlyOwnOp_updMe _ hc rfl rfl rfl rfl

theorem finishesWith_of_exec_finish {i : Instr} {s : State} {code : RCode} {v : Int} (hc : s.cur < s.ctxs.length)
    (h : exec i s = .next (finish code v s)) : FinishesWith i s code v :=
  ⟨_, h, finish_finished code v hc, onlyOwnOp_finish code v hc⟩

theorem exec_refresh_age_fresh {m : Nat} {s : State} {l : Latch} (hp : s.me.phase = .age) (hl : s.me.lat = some l)
    (hm : l.maxAge.toNat = m) (ha : ageAt s.now s ≤ (m : Int)) :
    exec (.refresh m) s = .next (finish .noxfer 0 s) := by
  have hfresh : stale s.now l.maxAge s = false := (stale_eq_false_iff _ _ _).mpr (by rw [hm]; exact ha)
  rw [exec, execRefresh, cacheOp_age _ _ _ _ _ hp hl, hfresh]
  rfl

/-- A cache op whose snapshot is fresh finishes in its age step (R147, R151). -/
theorem exec_age_fresh {i : Instr} {s : State} {l : Latch} (hi : i.opClass = .cache) (hp : s.me.phase = .age)
    (hl : s.me.lat = some l) (hm : ∀ n, i = .refresh n → l.maxAge.toNat = n)
    (ha : ageAt s.now s ≤ (maxAgeOf i s.cfg : Int)) : ∃ code v, exec i s = .next (finish code v s) := by
  cases i with
  | refresh n => exact ⟨_, _, exec_refresh_age_fresh hp hl (hm n rfl) ha⟩
  | getDistance | getLight | getLine | getBattery | getEncoder | getPosflag =>
    exact ⟨_, _, getterOp_age_fresh _ _ hp hl ha⟩
  | _ => cases hi

end Sys2Proof.Proofs
end

section
open Sys2Proof Sys2Proof.Machine Sys2Proof.Claims Sys2Proof.Proofs

/-- Settles O47: an age step goes to the polls when the test finds the snapshot stale, and finishes the op when not. -/
theorem stalenessDecidesTheRead : Obligations.StalenessDecidesTheRead := by
  refine ⟨stale_eq_true_iff, fun i l s hi ⟨hc, hp⟩ hl hm => ⟨fun ha => ?_, fun ha => ?_⟩⟩
  · exact ⟨goPoll s, exec_age_stale hi hp hl hm ha, onlyOwnOp_goPoll hc, goPoll_me hc⟩
  · obtain ⟨code, v, hexec⟩ := exec_age_fresh hi hp hl hm ha
    obtain ⟨t, ht, ⟨-, -, -, hidle, -⟩, hown⟩ := finishesWith_of_exec_finish hc hexec
    exact ⟨t, ht, hown, hidle⟩

/-- Settles O48: the age step of REFRESH on a fresh snapshot is its finish. -/
theorem refreshOfFreshSnapshot : Obligations.RefreshOfFreshSnapshot := fun _ _ _ ⟨hc, hp⟩ hl hm ha =>
  finishesWith_of_exec_finish hc (exec_refresh_age_fresh hp hl hm ha)

end

section
/-! SUPPORT. The rotations' round trip (R161, R162): two roundings of at most 1/2 each and the scale error of C and S. -/

namespace Sys2Proof.Proofs

open Sys2Proof.Machine Sys2Proof.Claims

theorem abs_rnd14_error_le (k : Int) : |16384 * rnd14 k - k| ≤ 8192 := by
  rw [rnd14, abs_le]
  omega

/-- E(v) over the integers, with both sides of R162 multiplied by 2^28. -/
theorem le_roundTripBound_iff {n c t v : Int} : n ≤ roundTripBound c t v ↔
    268435456 * n ≤ |v| * |c ^ 2 + t ^ 2 - 2 ^ 28| + 8192 * (|c| + |t|) + 134217728 := by
  rw [roundTripBound, Int.le_floor, ← Int.cast_le (R := ℚ)]
  push_cast
  constructor <;> intro h <;> linarith

theorem roundTripBound_neg (c t v : Int) : roundTripBound c (-t) v = roundTripBound c t v := by
  rw [roundTripBound, roundTripBound, neg_sq, abs_neg]

/-- Where p·C + q·S is v·(C² + S²), rounding p, q and the combination moves v by at most E(v). -/
theorem abs_rnd14_combination_sub_le {c t p q v : Int} (h : p * c + q * t = v * (c ^ 2 + t ^ 2)) :
    |rnd14 (rnd14 p * c + rnd14 q * t) - v| ≤ roundTripBound c t v := by
  set w := rnd14 (rnd14 p * c + rnd14 q * t)
  have hsplit : 268435456 * (w - v) = v * (c ^ 2 + t ^ 2 - 2 ^ 28)
      + ((16384 * rnd14 p - p) * c + (16384 * rnd14 q - q) * t)
      + 16384 * (16384 * w - (rnd14 p * c + rnd14 q * t)) := by
    linear_combination h
  have hinner := abs_add_le ((16384 * rnd14 p - p) * c) ((16384 * rnd14 q - q) * t)
  rw [abs_mul _ c, abs_mul _ t] at hinner
  have hp := mul_le_mul_of_nonneg_right (abs_rnd14_error_le p) (abs_nonneg c)
  have hq := mul_le_mul_of_nonneg_right (abs_rnd14_error_le q) (abs_nonneg t)
  have hw := abs_rnd14_error_le (rnd14 p * c + rnd14 q * t)
  rw [le_roundTripBound_iff]
  calc 268435456 * |w - v| = |268435456 * (w - v)| := by rw [abs_mul, Nat.abs_ofNat]
    _ ≤ |v * (c ^ 2 + t ^ 2 - 2 ^ 28)| + |(16384 * rnd14 p - p) * c + (16384 * rnd14 q - q) * t|
        + |16384 * (16384 * w - (rnd14 p * c + rnd14 q * t))| := by
      rw [hsplit]
      exact abs_add_three _ _ _
    _ ≤ |v| * |c ^ 2 + t ^ 2 - 2 ^ 28| + 8192 * (|c| + |t|) + 134217728 := by
      rw [abs_mul v, abs_mul 16384, Nat.abs_ofNat]
      linarith

theorem abs_roundTrip_y_le (c t x y z : Int) :
    |(rotM c t (rotA c t (x, y, z))).2.1 - y| ≤ roundTripBound c t y :=
  abs_rnd14_combination_sub_le (by ring)

theorem abs_roundTrip_z_le (c t x y z : Int) :
    |(rotM c t (rotA c t (x, y, z))).2.2 - z| ≤ roundTripBound c t z := by
  have h := abs_rnd14_combination_sub_le (c := c) (t := -t) (p := y * t + z * c) (q := y * c - z * t) (v := z) (by ring)
  rwa [roundTripBound_neg, mul_neg, ← sub_eq_add_neg] at h

theorem roundTripBound_ep1_le_one (v : BitVec 16) : roundTripBound 12551 10531 v.toInt ≤ 1 := by
  have hv : |v.toInt| ≤ 32768 := abs_le.mpr ⟨v.le_toInt, v.toInt_le.trans (by norm_num)⟩
  have hscale : |(12551 : Int) ^ 2 + 10531 ^ 2 - 2 ^ 28| = 5894 := by decide
  have hsum : |(12551 : Int)| + |10531| = 23082 := by decide
  refine Int.lt_add_one_iff.mp (not_le.mp (le_roundTripBound_iff.not.mpr ?_))
  rw [hscale, hsum]
  omega

end Sys2Proof.Proofs
end

section
/-! SUPPORT. The drawn result of GET_COMPASS (R165, log 13): the draws reach the headings within COMPASS_TOL, and only
those. -/

namespace Sys2Proof.Proofs

open Sys2Proof Sys2Proof.Machine Sys2Proof.Claims

theorem compassHeading_lt {g b : Int × Int × Int} {h : Nat} (hh : compassHeading g b = some h) : h < 360 := by
  have hexact := (compassHeadingIsExact g b).2 h hh
  omega

theorem compassValue_lt (o : Option Nat) (d : Nat) : compassValue o d < 360 := by
  cases o with
  | none => exact Nat.mod_lt _ (by decide)
  | some h => exact Nat.mod_lt _ (by decide)

theorem circularDistance_compassValue_le {h : Nat} (hh : h < 360) (d : Nat) :
    circularDistance (compassValue (some h) d) h ≤ Config.compassTol := by
  simp only [circularDistance, compassValue, Config.compassTol]
  omega

/-- Each heading within COMPASS_TOL of h is drawn: h − 1, h and h + 1 by 0, 1 and 2. -/
theorem exists_compassValue_some_eq {h v : Nat} (hh : h < 360) (hv : v < 360)
    (hnear : circularDistance v h ≤ Config.compassTol) : ∃ d, compassValue (some h) d = v := by
  refine ⟨(v + 361 - h) % 360, ?_⟩
  simp only [circularDistance, compassValue, Config.compassTol] at hnear ⊢
  omega

theorem finishesWith_getCompass {s : State} (hs : Standing s .decode) : FinishesWith .getCompass s .ok
    (compassValue (compassHeading (accelOf s) (magnetOf s)) s.pins.compassDraw) := by
  refine finishesWith_of_localOp { op := .getCompass } (value := fun u =>
    compassValue (compassHeading (rotatedAccel u.cfg u.pins) (rotatedMagnet u.cfg u.pins)) u.pins.compassDraw) rfl ?_ hs
  simp only [latch_cfg, latch_pins, rotatedAccel_eq, rotatedMagnet_eq]

end Sys2Proof.Proofs
end

section
/-! SUPPORT. A level reading (R167): with gx = gy = 0 both angles are 0, so levelling leaves the field as it is. -/

namespace Sys2Proof.Proofs

open Sys2Proof.Machine Sys2Proof.Claims

theorem atanQ_zero (d : ℝ) : atanQ 0 d = 0 := by
  rw [atanQ, zero_div, Real.arctan_zero, Real.sign_zero, zero_mul, ite_self]

section
variable (z : Int)

theorem roll_level : roll (0, 0, z) = 0 := by
  simp only [roll, Int.cast_zero, neg_zero, atanQ_zero]

theorem pitchBase_level : pitchBase (0, 0, z) = z := by
  simp [pitchBase, roll_level]

theorem pitch_level : pitch (0, 0, z) = 0 := by
  simp only [pitch, Int.cast_zero, atanQ_zero]

theorem fieldX_level (b : Int × Int × Int) : fieldX (0, 0, z) b = b.1 := by
  simp [fieldX, roll_level, pitch_level]

theorem fieldY_level (b : Int × Int × Int) : fieldY (0, 0, z) b = b.2.1 := by
  simp [fieldY, roll_level]

end

theorem realHeading_level_north (z w : Int) {y : Int} (hy : 0 < y) : realHeading (0, 0, z) (0, y, w) = 0 := by
  have harg : Complex.arg ⟨y, (0 : ℝ)⟩ = 0 := Complex.arg_ofReal_of_nonneg (by exact_mod_cast hy.le)
  rw [realHeading_eq, fieldX_level, fieldY_level, Int.cast_zero, bearing_of_nonneg le_rfl, harg, zero_mul, zero_div]

theorem not_degenerate_level_north {z y : Int} (w : Int) (hz : z < 0) (hy : 0 < y) :
    ¬ Degenerate (0, 0, z) (0, y, w) := by
  rintro (⟨-, h⟩ | ⟨-, h⟩ | ⟨-, h⟩)
  · exact hz.ne h
  · rw [pitchBase_level, Int.cast_eq_zero] at h
    exact hz.ne h
  · rw [fieldY_level, Int.cast_eq_zero] at h
    exact hy.ne' h

theorem compassHeading_level_north {z y : Int} (w : Int) (hz : z < 0) (hy : 0 < y) :
    compassHeading (0, 0, z) (0, y, w) = some 0 := by
  obtain ⟨hnone, hsome⟩ := compassHeadingIsExact (0, 0, z) (0, y, w)
  obtain ⟨h, hh⟩ := Option.ne_none_iff_exists'.mp (hnone.not.mpr (not_degenerate_level_north w hz hy))
  have hzero : (h : Int) = 0 := by
    rw [hsome h hh, realHeading_level_north z w hy]
    norm_num
  rw [hh, Int.natCast_eq_zero.mp hzero]

end Sys2Proof.Proofs
end

section
open Sys2Proof Sys2Proof.Machine Sys2Proof.Claims Sys2Proof.Proofs

/-- Settles O50: negating S turns each sum of rotA into the difference of rotM and back. -/
theorem magnetRotationIsOpposite : Obligations.MagnetRotationIsOpposite := by
  intro c t v
  simp only [rotM, rotA, mul_neg, sub_neg_eq_add, neg_add_eq_sub]

/-- Settles O51: the scale error and the three rounding errors of a component add up to at most E(v). -/
theorem rotationRoundTrip : Obligations.RotationRoundTrip :=
  ⟨fun c t x y z => ⟨rfl, abs_roundTrip_y_le c t x y z, abs_roundTrip_z_le c t x y z⟩, by norm_num, by norm_num,
    roundTripBound_ep1_le_one⟩

/-- Settles O52: the op ends in its decode step with the drawn value, and the draws reach exactly the values allowed. -/
theorem compassWithinTolerance : Obligations.CompassWithinTolerance := by
  intro s hs
  refine ⟨⟨_, finishesWith_getCompass hs, compassValue_lt _ _, fun h hh => ?_⟩, fun v hv hnear => ?_⟩
  · rw [hh]
    exact circularDistance_compassValue_le (compassHeading_lt hh) _
  · have hdraw : ∃ d, compassValue (compassHeading (accelOf s) (magnetOf s)) d = v := by
      cases ho : compassHeading (accelOf s) (magnetOf s) with
      | none => exact ⟨v, Nat.mod_eq_of_lt hv⟩
      | some h => exact exists_compassValue_some_eq (compassHeading_lt ho) hv (hnear h ho)
    obtain ⟨d, rfl⟩ := hdraw
    exact ⟨d, finishesWith_getCompass (s := { s with pins := { s.pins with compassDraw := d } }) hs⟩

/-- Settles O54: level, both angles are 0 and the field is its own level field, whose bearing due north is 0. -/
theorem levelNorthReadsZero : Obligations.LevelNorthReadsZero := by
  intro z x y w hz
  refine ⟨roll_level z, pitch_level z, fieldX_level z _, fieldY_level z _, ?_⟩
  rintro rfl hy
  exact compassHeading_level_north w hz hy

end

section
/-! SUPPORT. Reset and the host's accesses while it lasts: the reset values as the claims state them, and reads and
writes at rst_n = 0 (R186, R187; log 8). -/

namespace Sys2Proof.Proofs

open Sys2Proof Sys2Proof.Machine Sys2Proof.Claims

theorem ctxAtReset_reset : CtxAtReset Ctx.reset := by
  unfold CtxAtReset
  decide

/-- An idle context has no wait for time to shorten (R115). -/
theorem waited_of_ctxAtReset {c : Ctx} (d : Nat) (h : CtxAtReset c) : waited d c = c := by
  obtain ⟨-, -, -, -, -, -, -, hidle, -, -⟩ := h
  exact if_neg (by simp [hidle])

theorem atResetValues_of_blockAtReset {s : State} (h : BlockAtReset s) : AtResetValues s := by
  obtain ⟨hready, hinit, howner, hxfer, hr, hg, hb, hsnap, htime, hlen, hctx, hcs, hsclk⟩ := h
  refine ⟨hready, hinit, howner, hxfer, by rw [hr]; rfl, by rw [hg]; rfl, by rw [hb]; rfl, by rw [hsnap]; rfl, htime,
    hlen, fun c hc => ?_, hcs, hsclk⟩
  rw [hctx c hc]
  exact ctxAtReset_reset

theorem atResetValues_setRst (s : State) : AtResetValues (setRst false s) :=
  atResetValues_of_blockAtReset (s := setRst false s) (blockAtReset_atReset s.cfg)

theorem atResetValues_observed {s : State} (h : AtResetValues s) : AtResetValues (observed s) := by
  unfold AtResetValues
  simp only [observed_ready, observed_initDone, observed_owner, observed_xfer, observed_beakR, observed_beakG,
    observed_beakB, observed_snap, observed_snapTime, observed_length, observed_cfg, observed_csN, observed_sclk]
  obtain ⟨hready, hinit, howner, hxfer, hr, hg, hb, hsnap, htime, hlen, hctx, hports⟩ := h
  refine ⟨hready, hinit, howner, hxfer, hr, hg, hb, hsnap, htime, hlen, fun c hc => ?_, hports⟩
  obtain ⟨d, c', hc', rfl⟩ := mem_observed hc
  rw [waited_of_ctxAtReset d (hctx c' hc')]
  exact hctx c' hc'

section
variable {s : State} {a : BitVec 12} (hr : s.rstN = false) (h4 : a.toNat % 4 = 0)
include hr h4

theorem step_read_held (ha : HostReads s a) : step s = .next { observed s with hRdata := 0x00000000 } := by
  have hok : accessOk a 0xF = true := accessOk_iff.mpr ⟨h4, rfl⟩
  simp only [step_host ha, hostAccess, hok, observed_rstN, hr, if_true, Bool.false_eq_true, if_false]

theorem step_write_held {w : Word} (hw : HostWrites s a w) : step s = .next (observed s) := by
  have hok : accessOk a 0xF = true := accessOk_iff.mpr ⟨h4, rfl⟩
  simp only [step_host hw, hostAccess, hok, observed_rstN, hr, if_true, Bool.false_eq_true, if_false]

end

end Sys2Proof.Proofs
end

section
open Sys2Proof Sys2Proof.Machine Sys2Proof.Claims Sys2Proof.Proofs

/-- Settles O14: both states are State.atReset's but for `mosi`, the environment and the level of rst_n. -/
theorem resetLeavesStatedValues : Obligations.ResetLeavesStatedValues :=
  ⟨atResetValues_of_blockAtReset (blockAtReset_atReset _), fun s ha =>
    ⟨_, step_rst ha, atResetValues_setRst (observed s), rfl, observed_cfg s⟩⟩

/-- Settles O15: an event reaches no reset value, and at rst_n = 0 the host's accesses and the contexts do no more. -/
theorem resetPinHolds : Obligations.ResetPinHolds := by
  intro s hr h
  have hobs := atResetValues_observed h
  have hcs : (observed s).csN = true := by
    obtain ⟨-, -, -, -, -, -, -, -, -, -, -, hcs, -⟩ := hobs
    exact hcs
  have hctx (k : Nat) : ¬ CtxSteps s k := fun ⟨hr', _⟩ => by rw [hr] at hr'; cases hr'
  exact ⟨hobs, hcs, fun _ h4 ha => step_read_held hr h4 ha, fun _ _ h4 hw => step_write_held hr h4 hw,
    fun k ha => step_no_ctx ha (hctx k), fun ha => ⟨_, step_rst ha, rfl, hobs⟩⟩

end

section
/-! SUPPORT. RESULT and RCODE: which steps keep them, and what a read of RESULT or STATUS shows of them (R51, R58, R59,
R196). -/

namespace Sys2Proof.Proofs

open Sys2Proof Sys2Proof.Machine Sys2Proof.Claims

/-! ### The writers of RESULT and RCODE -/

/-- If the context is busy after, its RESULT and RCODE are as before. -/
def ResultKept (c d : Ctx) : Prop := d.busy = true → d.result = c.result ∧ d.rcode = c.rcode

theorem resultKept_refl (c : Ctx) : ResultKept c c := fun _ => ⟨rfl, rfl⟩

theorem resultKept_of_not_busy {c d : Ctx} (h : d.busy = false) : ResultKept c d :=
  fun hb => by rw [h] at hb; cases hb

/-- The operation that ends every op leaves its context not busy (R51). -/
theorem finish_me_busy (code : RCode) (r : Int) (s : State) : (finish code r s).me.busy = false := by
  by_cases hc : s.cur < s.ctxs.length
  · rw [finish_me code r hc]
  · rw [State.me, ctx_beyond (Nat.le_of_not_lt (by simpa using hc))]
    rfl

theorem resultKept_finish (code : RCode) (r : Int) (s : State) (k : Nat) :
    ResultKept (s.ctx k) ((finish code r s).ctx k) := by
  by_cases hk : k = s.cur
  · subst hk
    exact resultKept_of_not_busy (finish_me_busy code r s)
  · rw [finish_ctx_ne code r hk]
    exact resultKept_refl _

theorem resultKept_ctxWrite (off : Nat) (w : Word) (c : Ctx) : ResultKept c (ctxWrite off w c) := by
  rw [ctxWrite_frame]
  exact fun _ => ⟨rfl, rfl⟩

theorem resultKept_hostAccess {s t : State} {h : HostAccess} (ht : hostAccess h s = .next t) (k : Nat) :
    ResultKept (s.ctx k) (t.ctx k) := by
  obtain ⟨v, rfl⟩ | rfl | ⟨a, w, -, -, -, -, rfl⟩ := hostAccess_next ht
  · exact resultKept_refl _
  · exact resultKept_refl _
  obtain hctx | ⟨-, -, hctx⟩ := ctx_updCtx_or s ((a.toNat - 0x100) / 0x40) k (ctxWrite ((a.toNat - 0x100) % 0x40) w)
  · rw [hctx]; exact resultKept_refl _
  · rw [hctx]; exact resultKept_ctxWrite _ _ _

theorem resultKept_setRst (level : Bool) (s : State) (k : Nat) : ResultKept (s.ctx k) ((setRst level s).ctx k) := by
  cases level with
  | true => exact resultKept_refl _
  | false =>
    have hctx : (setRst false s).ctx k = Ctx.reset :=
      ctx_blockAtReset (s := setRst false s) (blockAtReset_atReset s.cfg) k
    rw [hctx]
    exact resultKept_of_not_busy rfl

/-- Of the moves only those that end the op write RESULT and RCODE (R51). -/
theorem move_me_resultKept {i : Instr} {s t : State} (h : Move i s t) : ResultKept s.me t.me := by
  have hc := move_cur_lt h
  cases h with
  | localDone | initDone | decodeStop | ageFresh | pollDrop | commit =>
    exact resultKept_of_not_busy (finish_me_busy _ _ _)
  | decodePoll l => rw [goPoll_me (by simpa), latch_me l hc]; exact fun _ => ⟨rfl, rfl⟩
  | decodeAge l => rw [goAge_me (by simpa), latch_me l hc]; exact fun _ => ⟨rfl, rfl⟩
  | agePoll => rw [goPoll_me hc]; exact fun _ => ⟨rfl, rfl⟩
  | pollClaim => rw [claim_me hc]; exact fun _ => ⟨rfl, rfl⟩
  | pollAgain => rw [me_updMe _ hc]; exact fun _ => ⟨rfl, rfl⟩
  | byte build l =>
    have hcur : (byteStep build l s).cur = s.cur := by rw [byteStep_frame]
    obtain hctxs | hctxs := byteStep_ctxs build l s
    · have hme : (byteStep build l s).me = s.me := by rw [State.me, State.me, State.ctx, State.ctx, hctxs, hcur]
      rw [hme]
      exact resultKept_refl _
    · rw [me_of_ctxs hctxs hcur hc]
      exact fun _ => ⟨rfl, rfl⟩

theorem move_resultKept {i : Instr} {s t : State} (h : Move i s t) (k : Nat) : ResultKept (s.ctx k) (t.ctx k) := by
  by_cases hk : k = s.cur
  · obtain ⟨-, -, -, -, -, -, -, hcur, -, -⟩ := move_outsideKept h
    have hme := move_me_resultKept h
    rwa [State.me, State.me, hcur, ← hk] at hme
  · rw [move_ctx_ne h hk]
    exact resultKept_refl _

/-- Every step of every agent (R196). -/
theorem step_resultKept {s t : State} (h : step s = .next t) (k : Nat) : ResultKept ((observed s).ctx k) (t.ctx k) := by
  cases step_move h with
  | quiet => exact resultKept_refl _
  | host a _ _ ht => exact resultKept_hostAccess ht k
  | illegal j => exact resultKept_finish .illegal 0 (atStep s j) k
  | decode j i _ _ _ _ ht | latched j l _ _ _ _ _ ht => exact move_resultKept (exec_move ht) k
  | rst level => exact resultKept_setRst level (observed s) k

/-! ### What a read shows -/

theorem registerWord_ctxAddr {s : State} {k off : Nat} (hlen : s.ctxs.length ≤ 16) (hk : k < s.ctxs.length)
    (ho : off < 0x40) : registerWord s (ctxAddr k off).toNat = ctxRegister (s.ctx k) off := by
  obtain ⟨hlo, hctx, hoff⟩ := ctxAddr_split (k := k) ho (by omega)
  rw [registerWord_ctx s hlo, hctx, hoff, if_pos hk]

theorem step_read_ctx {s t : State} {k off : Nat} (hr : s.rstN = true) (hlen : s.ctxs.length ≤ 16)
    (hk : k < s.ctxs.length) (ho : off < 0x40) (h4 : off % 4 = 0) (ha : HostReads s (ctxAddr k off))
    (h : step s = .next t) : t.hRdata = ctxRegister (s.ctx k) off := by
  have hal : (ctxAddr k off).toNat % 4 = 0 := by rw [ctxAddr_toNat (by omega)]; omega
  rw [step_read hr hal ha, registerWord_ctxAddr hlen hk ho] at h
  cases h
  rfl

/-- RCODE stands in bits 6:4 of STATUS (R58). -/
theorem ctxRegister_status_rcode (c : Ctx) : (ctxRegister c 0x04).extractLsb' 4 3 = rcodeBits c.rcode := by
  change (0#25 ++ rcodeBits c.rcode ++ 0#2 ++ BitVec.ofBool c.ovr ++ BitVec.ofBool c.busy).extractLsb' 4 3 = _
  have hbusy := c.busy.toNat_lt
  have hovr := c.ovr.toNat_lt
  have hcode := (rcodeBits c.rcode).isLt
  apply BitVec.eq_of_toNat_eq
  simp only [BitVec.extractLsb'_toNat, toNat_append_eq, BitVec.toNat_ofNat, BitVec.toNat_ofBool,
    Nat.shiftRight_eq_div_pow]
  omega

end Sys2Proof.Proofs
end

section
open Sys2Proof Sys2Proof.Machine Sys2Proof.Claims Sys2Proof.Proofs

/-- Settles O58: only the end of an op and reset write RESULT and RCODE, and both leave the context not busy; a read
shows the values that stand before the step. -/
theorem busyKeepsResult : Obligations.BusyKeepsResult := by
  refine ⟨fun s t k h hb => ?_, fun s t k hr hlen hk h => ⟨fun ha => ?_, fun ha => ?_⟩⟩
  · simpa using step_resultKept h k hb
  · exact step_read_ctx hr hlen hk (by decide) (by decide) ha h
  · rw [step_read_ctx hr hlen hk (by decide) (by decide) ha h, ctxRegister_status_rcode]

end
